-- ==== Sys2Proof/Word.lean ====
section
/-! DEFINITION. The words the block handles: bytes, 32-bit host command words, and the two formats an
instruction of spec/opcode_table.json can have (`cmd32` and `wire8`). -/

namespace Sys2Proof

/-- A byte on the bus (20_memory.md R43). -/
abbrev Byte := BitVec 8

/-- A host command word, always 32 bits (30_encoding.md R54). -/
abbrev Word := BitVec 32

/-- An instruction as the hardware carries it: one host command word, or one opcode byte on the bus. -/
inductive CodeWord where
  /-- a word on the host command port (30_encoding.md R54) -/
  | cmd32 (w : Word)
  /-- byte 0 of a transfer (30_encoding.md R66 to R68) -/
  | wire8 (b : Byte)
  deriving DecidableEq, Repr

end Sys2Proof
end

