-- ==== Sys2Proof/Syntax.lean ====
section
/-! DEFINITION. The instructions: one constructor for each row of spec/opcode_table.json. -/

namespace Sys2Proof

/-- The rows of spec/opcode_table.json, operands assembled as 30_encoding.md R62 says. -/
inductive Instr where
  /-- INIT (R56): rescan interval `r` and repaint interval `p`, milliseconds -/
  | init (r p : BitVec 14)
  /-- REQUEST (R57): the set of kinds, bit 0 WriteConfig, bit 1 ReadKeys, bit 2 WriteSegments -/
  | request (mask : BitVec 3)
  /-- WRITE_DIGIT (R58): unsigned position, signed value (sign-extended from 8 bits) -/
  | writeDigit (pos : BitVec 8) (val : BitVec 16)
  /-- SET_ENABLED (R59) -/
  | setEnabled (en : Bool)
  /-- SET_BRIGHTNESS (R60) -/
  | setBrightness (level : BitVec 3)
  /-- GET_KEYS (R61) -/
  | getKeys
  /-- WIRE_DISPLAY_CONTROL (R66): the byte of a WriteConfig -/
  | wireDisplayControl (enabled : Bool) (brightness : BitVec 3)
  /-- WIRE_READ_DATA (R67): byte 0 of a ReadKeys -/
  | wireReadData
  /-- WIRE_WRITE_DATA (R67): byte 0 of a WriteSegments -/
  | wireWriteData
  /-- WIRE_SET_ADDRESS (R68): defined, never emitted by this block -/
  | wireSetAddress (addr : BitVec 4)
  deriving DecidableEq, Repr

end Sys2Proof
end

