-- ==== Sys2Proof/WellFormed.lean ====
section
/-! DEFINITION. Which instruction terms an encoding can carry. -/

namespace Sys2Proof

/-- The value range of WRITE_DIGIT: `val` is signed, -128..127 (30_encoding.md R58). -/
def digitValueFits (val : BitVec 16) : Bool := decide (-128 ≤ val.toInt ∧ val.toInt ≤ 127)

/-- Well-formed instructions. Every operand but WRITE_DIGIT's value has the width of its field, so
its type holds just the legal values (an out-of-range brightness cannot be written, R60). -/
def Instr.wf : Instr → Bool
  | .init _ _ => true
  | .request _ => true
  | .writeDigit _ val => digitValueFits val
  | .setEnabled _ => true
  | .setBrightness _ => true
  | .getKeys => true
  | .wireDisplayControl _ _ => true
  | .wireReadData => true
  | .wireWriteData => true
  | .wireSetAddress _ => true

end Sys2Proof
end

