-- ==== Sys2Proof/Decode.lean ====
section
/-! DEFINITION. The decoder, total on every host command word and every wire byte, rejecting by
name; then the encoder, written from the same tables (30_encoding.md). -/

namespace Sys2Proof

/-- Why a word has no meaning (30_encoding.md R63). -/
inductive Reserved where
  /-- R63 (a): an operation code that is reserved with any body -/
  | opCode (op : BitVec 4)
  /-- R63 (b): a 1 in a bit that R57 to R61 say must be 0 -/
  | mustBeZero (op : BitVec 4)
  /-- a byte that is none of the opcode bytes of R66 to R68 -/
  | wireByte (b : Byte)
  deriving DecidableEq, Repr

/-- What decoding answers: an instruction, or a reason for having none. -/
inductive Decoded where
  | instr (i : Instr)
  | reserved (why : Reserved)
  deriving DecidableEq, Repr

/-- The field of `n` bits of `w` whose lowest bit is `lo`: the notation `w[lo+n-1:lo]` of
00_scope.md R7. -/
def field {k : Nat} (w : BitVec k) (lo n : Nat) : BitVec n := w.extractLsb' lo n

/-- `decode` of 30_encoding.md R64, on a host command word. -/
def decodeHost (w : Word) : Decoded :=
  let op := field w 28 4
  if op = 0x1#4 then .instr (.init (field w 14 14) (field w 0 14))
  else if op = 0x2#4 then
    if field w 3 25 = 0 then .instr (.request (field w 0 3)) else .reserved (.mustBeZero op)
  else if op = 0x3#4 then
    if field w 16 12 = 0 then .instr (.writeDigit (field w 8 8) ((field w 0 8).signExtend 16))
    else .reserved (.mustBeZero op)
  else if op = 0x4#4 then
    if field w 1 27 = 0 then .instr (.setEnabled (w.getLsbD 0)) else .reserved (.mustBeZero op)
  else if op = 0x5#4 then
    if field w 3 25 = 0 then .instr (.setBrightness (field w 0 3)) else .reserved (.mustBeZero op)
  else if op = 0x6#4 then
    if field w 0 28 = 0 then .instr .getKeys else .reserved (.mustBeZero op)
  else .reserved (.opCode op)

/-- The classification of a byte 0 (30_encoding.md R66 to R68; the bit patterns of the table's
`wire8` rows). -/
def decodeWire (b : Byte) : Decoded :=
  if field b 4 4 = 0x8#4 then .instr (.wireDisplayControl (b.getLsbD 3) (field b 0 3))
  else if b = 0x42#8 then .instr .wireReadData
  else if b = 0x40#8 then .instr .wireWriteData
  else if field b 4 4 = 0xC#4 then .instr (.wireSetAddress (field b 0 4))
  else .reserved (.wireByte b)

/-- Decoding, on either format. -/
def decode : CodeWord → Decoded
  | .cmd32 w => decodeHost w
  | .wire8 b => decodeWire b

/-- The display-control byte `0x80 | (enabled ? 0x08 : 0) | brightness` (30_encoding.md R66). -/
def displayControlByte (enabled : Bool) (brightness : BitVec 3) : Byte :=
  0x80#8 ||| (if enabled then 0x08#8 else 0x00#8) ||| brightness.setWidth 8

/-- read-data, byte 0 of ReadKeys (30_encoding.md R67). -/
def readDataByte : Byte := 0x42#8

/-- write-data, byte 0 of WriteSegments (30_encoding.md R67). -/
def writeDataByte : Byte := 0x40#8

/-- set-address `0xC0 | addr` (30_encoding.md R68). -/
def setAddressByte (addr : BitVec 4) : Byte := 0xC0#8 ||| addr.setWidth 8

/-- The encoder: the word or byte of a well-formed instruction (30_encoding.md R56 to R61, R66 to
R68). Of WRITE_DIGIT's value the low 8 bits are carried. -/
def encode : Instr → CodeWord
  | .init r p => .cmd32 (0x1#4 ++ r ++ p)
  | .request mask => .cmd32 (0x2#4 ++ 0#25 ++ mask)
  | .writeDigit pos val => .cmd32 (0x3#4 ++ 0#12 ++ pos ++ val.setWidth 8)
  | .setEnabled en => .cmd32 (0x4#4 ++ 0#27 ++ BitVec.ofBool en)
  | .setBrightness level => .cmd32 (0x5#4 ++ 0#25 ++ level)
  | .getKeys => .cmd32 (0x6#4 ++ 0#28)
  | .wireDisplayControl enabled brightness => .wire8 (displayControlByte enabled brightness)
  | .wireReadData => .wire8 readDataByte
  | .wireWriteData => .wire8 writeDataByte
  | .wireSetAddress addr => .wire8 (setAddressByte addr)

/-- A row's `match` and `mask` in spec/opcode_table.json, in the row's own format. -/
def tableRow : Instr → CodeWord × CodeWord
  | .init _ _ => (.cmd32 0x10000000#32, .cmd32 0xF0000000#32)
  | .request _ => (.cmd32 0x20000000#32, .cmd32 0xFFFFFFF8#32)
  | .writeDigit _ _ => (.cmd32 0x30000000#32, .cmd32 0xFFFF0000#32)
  | .setEnabled _ => (.cmd32 0x40000000#32, .cmd32 0xFFFFFFFE#32)
  | .setBrightness _ => (.cmd32 0x50000000#32, .cmd32 0xFFFFFFF8#32)
  | .getKeys => (.cmd32 0x60000000#32, .cmd32 0xFFFFFFFF#32)
  | .wireDisplayControl _ _ => (.wire8 0x80#8, .wire8 0xF0#8)
  | .wireReadData => (.wire8 0x42#8, .wire8 0xFF#8)
  | .wireWriteData => (.wire8 0x40#8, .wire8 0xFF#8)
  | .wireSetAddress _ => (.wire8 0xC0#8, .wire8 0xF0#8)

/-- The table's own test of a word: under the row's mask it is the row's match. -/
def CodeWord.fits (c : CodeWord) (row : CodeWord × CodeWord) : Bool :=
  match c, row with
  | .cmd32 w, (.cmd32 m, .cmd32 k) => w &&& k == m
  | .wire8 b, (.wire8 m, .wire8 k) => b &&& k == m
  | _, _ => false

/-- The instruction whose table bits are `w`, in the format of a row of `nbits` bits: up to 8 bits a
wire byte, above that a host command word (bits above `nbits` are 0). A host command word is never
split into bytes (20_memory.md R43), so no byte order enters. -/
def codeWordOf (nbits w : Nat) : CodeWord :=
  if nbits ≤ 8 then .wire8 (BitVec.ofNat 8 w) else .cmd32 (BitVec.ofNat 32 w)

/-- What this decoder reads from the table word `w` of `nbits` bits. -/
def decodeTableWord (nbits w : Nat) : Option Instr :=
  match decode (codeWordOf nbits w) with
  | .instr i => some i
  | .reserved _ => none

/-! ### Pseudo-instructions (30_encoding.md R70) -/

/-- The pseudo-instructions of R70. -/
inductive Pseudo where
  | requestReadKeys
  | readKeys
  | requestConfig
  | repaint
  | rescan
  | blankDigit (pos : BitVec 8)
  | nop
  deriving DecidableEq, Repr

/-- What a pseudo-instruction expands to (30_encoding.md R70). -/
def Pseudo.expand : Pseudo → Instr
  | .requestReadKeys => .request 0b010#3
  | .readKeys => .request 0b010#3
  | .requestConfig => .request 0b001#3
  | .repaint => .request 0b100#3
  | .rescan => .request 0b010#3
  | .blankDigit pos => .writeDigit pos (-1)
  | .nop => .request 0b000#3

end Sys2Proof
end

