-- ==== Sys2Proof/Config.lean ====
section
/-! DEFINITION. What an implementation fixes (the named parameters of 00_scope.md R6) and the free
values of the model. An `opaque` constant has no body: nothing can evaluate it, so a proof holds for
whatever it is. The parameters stand in `State.params`, which no step changes, so that a statement
about every state holds for every value of them. -/

namespace Sys2Proof

/-- The named parameters of 00_scope.md R6. -/
structure Params where
  /-- `P_GLYPH`, entry `v` at index `v` (42_framebuffer.md R93) -/
  glyph : Vector Byte 16
  /-- `P_INIT_BRIGHTNESS`, OPEN (decision D11) -/
  initBrightness : BitVec 3
  /-- `P_INIT_REQUESTS_CONFIG`, OPEN (decision D12) -/
  initRequestsConfig : Bool
  /-- `P_SNAPSHOT_READ_ATOMIC` (decision D17) -/
  snapshotReadAtomic : Bool
  /-- `T_SETTLE`, OPEN (decision D29), timing only -/
  tSettle : Nat
  deriving DecidableEq, Repr

/-- Which agent takes the next step (10_state.md R11). The fourth agent, the peripheral, only supplies
the byte drawn when the transport completes a reception: it rides on the transport's turn. -/
inductive Turn where
  | host
  | handler
  /-- `received` is the `draw()` of 41_transfer.md R80, read only where a reception completes -/
  | transport (received : Byte)
  | rescan
  | repaint
  deriving DecidableEq, Repr, Inhabited

/-- Free value: the turn taken when `State.agenda` names none, one for each count of turns (20_memory.md
R47: nothing else constrains the order). Assumption 2. -/
opaque Config.turn : Nat → Turn

/-- Free value: the scheduler's `now` at a count of turns (44_init_refresh.md R102). Assumption 7. -/
opaque Config.now : Nat → Nat

/-- Free value: `P_INIT_BRIGHTNESS` at reset (OPEN, D11). Assumption 4. -/
opaque Config.initBrightness : BitVec 3

/-- Free value: `P_INIT_REQUESTS_CONFIG` at reset (OPEN, D12). Assumption 4. -/
opaque Config.initRequestsConfig : Bool

/-- Free value: `T_SETTLE` at reset (OPEN, D29). Assumption 4. -/
opaque Config.tSettle : Nat

end Sys2Proof
end

