-- ==== Sys2Proof/Machine/Glyph.lean ====
section
/-! DEFINITION. The glyph table (42_framebuffer.md R92, R93). -/

namespace Sys2Proof.Machine

/-- The default table of 42_framebuffer.md R93. Bit `s` of an entry is segment `s`, bit 0 segment a.
PRESUMED by the spec itself (K6) but for entry 7. Assumption 4. -/
def defaultGlyph : Vector Byte 16 :=
  #v[0x3F#8, 0x06#8, 0x5B#8, 0x4F#8, 0x66#8, 0x6D#8, 0x7D#8, 0x07#8,
     0x7F#8, 0x6F#8, 0x77#8, 0x7C#8, 0x39#8, 0x5E#8, 0x79#8, 0x71#8]

/-- `P_GLYPH(v)` for `v` in 0..15. -/
def glyphOf (table : Vector Byte 16) (v : Nat) : Byte :=
  if h : v < 16 then table[v] else 0x00#8

/-- The source's two constraints on the table: `P_GLYPH(7) = 0x07`, and bit 7 (the decimal point) of
every entry is 0 (00_scope.md R6). -/
def glyphTableOk (table : Vector Byte 16) : Bool :=
  glyphOf table 7 == 0x07#8 && (List.range 16).all fun v => !(glyphOf table v).getLsbD 7

end Sys2Proof.Machine
end

