-- ==== Sys2Proof/Machine/State.lean ====
section
/-! DEFINITION. The machine's state as plain data, its reasons to stop, and reset. Every register is
named as in 10_state.md. -/

namespace Sys2Proof.Machine

/-- DisplayConfig `CFG` (10_state.md R15). -/
structure DisplayConfig where
  enabled : Bool
  brightness : BitVec 3
  deriving DecidableEq, Repr

/-- `FB[0..7]`, eight 16-bit planes, one for each segment a..g, dp; bit `d` of a plane is digit slot `d`
(10_state.md R16). -/
structure Framebuffer where
  a : BitVec 16
  b : BitVec 16
  c : BitVec 16
  d : BitVec 16
  e : BitVec 16
  f : BitVec 16
  g : BitVec 16
  dp : BitVec 16
  deriving DecidableEq, Repr

/-- `ACT`, the ActiveTransfer (10_state.md R14): the kind's code (3 is illegal), the number of
completion events consumed, and the index of the next payload byte. -/
inductive Activity where
  | idle
  | busy (kind : BitVec 2) (step cursor : BitVec 5)
  deriving DecidableEq, Repr

/-- `XFER`, the transport operation in flight (10_state.md R22). -/
inductive Xfer where
  | none
  | tx (b : Byte)
  | rx
  deriving DecidableEq, Repr

/-- `EVT`, the pending completion event (10_state.md R23); `done none` is the event with no byte. -/
inductive Evt where
  | none
  | done (received : Option Byte)
  deriving DecidableEq, Repr

/-- One entry of the bus trace (10_state.md R25). -/
inductive BusEvent where
  | select
  | deselect
  | tx (b : Byte)
  | rxOn
  | rxOff
  | rxStart
  | rx (r : Byte)
  deriving DecidableEq, Repr

/-- The reasons `FAULT` can hold (60_exceptions.md R107). -/
inductive FaultReason where
  | eventWhileIdle
  | badKind
  | stepOutOfRange
  | rxByteMissing
  deriving DecidableEq, Repr

/-- The state. The last five fields are not registers of the block: the position in a split GET_KEYS
(43_keys_config.md R98), the cadence's time origin (44_init_refresh.md R102), the host's program
(10_state.md R28), and the environment's choices (assumption 2), with the parameters of 00_scope.md
R6 after them. -/
structure State where
  /-- `REQ`, R13 -/
  req : BitVec 3
  /-- `ACT`, R14 -/
  act : Activity
  /-- `CFG`, R15 -/
  cfg : DisplayConfig
  /-- `FB`, R16 -/
  fb : Framebuffer
  /-- `KEYS`, R17 -/
  keys : BitVec 32
  /-- `RDATA`, R18 -/
  rdata : BitVec 32
  /-- `RESCAN_MS`, R19 -/
  rescanMs : BitVec 14
  /-- `REPAINT_MS`, R19 -/
  repaintMs : BitVec 14
  /-- `CS`, R20: true is asserted -/
  cs : Bool
  /-- `RXMODE`, R21: true is receive mode -/
  rxmode : Bool
  /-- `XFER`, R22 -/
  xfer : Xfer
  /-- `EVT`, R23 -/
  evt : Evt
  /-- `KSTAGE`, R24 -/
  kstage : BitVec 24
  /-- `TRACE`, R25, oldest event first -/
  trace : List BusEvent
  /-- `FAULT`, R26 -/
  fault : Option FaultReason
  /-- `REFUSED`, R27 -/
  refused : Bool
  /-- `HPC`, R28 -/
  hpc : Nat
  /-- which of GK0..GK3 a split GET_KEYS does next (R98) -/
  gkPos : BitVec 2
  /-- `T0`, timing only (R102, R105) -/
  t0 : Nat
  /-- the host's program, a finite list (R28) -/
  program : List Word
  /-- the turns to come, as far as the environment has chosen them (R47) -/
  agenda : List Turn
  /-- how many turns have been taken: the argument of the free values -/
  tick : Nat
  /-- the named parameters (R6); no step changes them -/
  params : Params
  deriving DecidableEq, Repr

/-- Why a step ends in a fault. Each is safe: the model stops where it makes no claim. -/
inductive Fault where
  /-- `FAULT` is set and no agent has a step (60_exceptions.md R107); raised by a step of a machine that
  has faulted; safe. -/
  | blockFault (r : FaultReason)
  /-- No agent has a step and the run is not at a good end (70_reset_and_hazards.md R125,
  93_implementation_defined.md U4); raised by a step; safe. -/
  | stuck
  /-- A handler step whose cursor names a byte outside the framebuffer payload space (0..15) or outside
  `KSTAGE` (0..2); the spec gives no such byte and 10_state.md R37 excludes it; safe. Assumption 11. -/
  | cursorOutOfRange
  /-- A wire byte is executed that is neither on the bus nor awaiting its handler step; no step of
  the machine does this (assumption 12); safe. -/
  | wireByteNotDue
  deriving DecidableEq, Repr

/-- Why a step ends in a refusal. -/
inductive Refusal where
  /-- An instruction with no meaning yet, by its table mnemonic; raised by `exec`'s arm; safe. -/
  | notModelled (mnemonic : String)
  /-- The host has presented a reserved word (60_exceptions.md R108) and no other agent has a step;
  raised by a step; safe. -/
  | reservedWord
  deriving DecidableEq, Repr

/-- What a step or a meaning answers. -/
abbrev Answer := Host.Outcome State Fault Refusal

/-- The parameters at reset: R93's default table, R6's default for the snapshot read, and free values
for the three OPEN ones. Assumption 4. -/
def resetParams : Params where
  glyph := defaultGlyph
  initBrightness := Config.initBrightness
  initRequestsConfig := Config.initRequestsConfig
  snapshotReadAtomic := true
  tSettle := Config.tSettle

/-- The state after reset (70_reset_and_hazards.md R122, R123), for given parameters. The fields from
`gkPos` on are the model's own: assumptions 1, 2, 6, 7. -/
def State.resetWith (params : Params) : State where
  req := 0b000#3
  act := .idle
  cfg := ⟨false, 0#3⟩
  fb := ⟨0, 0, 0, 0, 0, 0, 0, 0⟩
  keys := 0x00000000#32
  rdata := 0x00000000#32
  rescanMs := 0#14
  repaintMs := 0#14
  cs := false
  rxmode := false
  xfer := .none
  evt := .none
  kstage := 0#24
  trace := []
  fault := none
  refused := false
  hpc := 0
  gkPos := 0#2
  t0 := 0
  program := []
  agenda := []
  tick := 0
  params := params

/-- The state after reset. -/
def State.reset : State := State.resetWith resetParams

end Sys2Proof.Machine
end

