-- ==== Sys2Proof/Machine/Operands.lean ====
section
/-! DEFINITION. Operand forms and the small bit and byte operations the meanings use: kinds and their
bits (00_scope.md R9), bytes of a word (20_memory.md R42), the framebuffer's planes, columns and
payload bytes (10_state.md R16, 20_memory.md R39, 42_framebuffer.md R95), WRITE_DIGIT's value. -/

namespace Sys2Proof.Machine

/-! ### Command kinds (00_scope.md R9) -/

/-- The three command kinds. -/
inductive Kind where
  | wc
  | rk
  | ws
  deriving DecidableEq, Repr

/-- The kind codes 0, 1, 2. -/
def kindCode : Kind → BitVec 2
  | .wc => 0
  | .rk => 1
  | .ws => 2

/-- The kind of a code; 3 is the code of none. -/
def kindOf (code : BitVec 2) : Option Kind :=
  if code = 0 then some .wc else if code = 1 then some .rk else if code = 2 then some .ws else none

/-- `bit(k) = 1 << k`, on 3 bits. -/
def kindBit (code : BitVec 2) : BitVec 3 := (1 : BitVec 3) <<< code.toNat

/-- `Total(k)`, the number of steps of a command (41_transfer.md R78). -/
def totalSteps : Kind → Nat
  | .wc => 1
  | .rk => 5
  | .ws => 17

/-! ### Bytes of a word -/

/-- `v[8i+7 : 8i]`. -/
def byteAt {n : Nat} (v : BitVec n) (i : Nat) : Byte := v.extractLsb' (8 * i) 8

/-- `v` with `b` in `v[8i+7 : 8i]`. -/
def setByteAt {n : Nat} (v : BitVec n) (i : Nat) (b : Byte) : BitVec n :=
  (v &&& ~~~((0xFF#8).setWidth n <<< (8 * i))) ||| (b.setWidth n <<< (8 * i))

/-- `v` with bit `d` set to `on`. -/
def setBit (v : BitVec 16) (d : Nat) (on : Bool) : BitVec 16 :=
  if on then v ||| (1#16 <<< d) else v &&& ~~~(1#16 <<< d)

/-! ### The framebuffer -/

/-- Plane `s`, for `s` in 0..7 (42_framebuffer.md R92). -/
def plane (fb : Framebuffer) : Fin 8 → BitVec 16
  | 0 => fb.a
  | 1 => fb.b
  | 2 => fb.c
  | 3 => fb.d
  | 4 => fb.e
  | 5 => fb.f
  | 6 => fb.g
  | 7 => fb.dp

/-- The framebuffer whose plane `s` is `p s`. -/
def fromPlanes (p : Fin 8 → BitVec 16) : Framebuffer where
  a := p 0
  b := p 1
  c := p 2
  d := p 3
  e := p 4
  f := p 5
  g := p 6
  dp := p 7

/-- `FB[s][d]`. -/
def fbBit (fb : Framebuffer) (s : Fin 8) (d : Nat) : Bool := (plane fb s).getLsbD d

/-- All 128 bits 0. -/
def clearedFb : Framebuffer := fromPlanes fun _ => 0

/-- Column `d` set to the segments of `g`: `FB[s][d] <- g[s]` for every `s` (42_framebuffer.md R94). -/
def writeColumn (fb : Framebuffer) (d : Nat) (g : Byte) : Framebuffer :=
  fromPlanes fun s => setBit (plane fb s) d (g.getLsbD s)

/-- `DecodeDigit(d)`, the segments lit in column `d`: bit `s` is `FB[s][d]` (42_framebuffer.md R95). -/
def decodeDigit (fb : Framebuffer) (d : Nat) : Byte :=
  (List.finRange 8).foldl (fun acc s => acc ||| ((BitVec.ofBool (fbBit fb s d)).setWidth 8 <<< s.val)) 0

/-- `FBByte(i) = FB[i >> 1][8(i & 1)+7 : 8(i & 1)]`, for payload addresses 0..15; no other address
exists (20_memory.md R39, R44). -/
def fbByte (fb : Framebuffer) (i : Nat) : Option Byte :=
  if h : i / 2 < 8 then some (byteAt (plane fb ⟨i / 2, h⟩) (i % 2)) else none

/-- `MemRead(addr, n)` of 00_scope.md R8: `n` bytes of the payload space from `addr` upward. -/
def memRead (fb : Framebuffer) (addr n : Nat) : Option (List Byte) :=
  (List.range n).mapM fun k => fbByte fb (addr + k)

/-- One payload byte replaced. -/
def setFbByte (fb : Framebuffer) (i : Nat) (b : Byte) : Option Framebuffer :=
  if i / 2 < 8 then
    some (fromPlanes fun s => if s.val = i / 2 then setByteAt (plane fb s) (i % 2) b else plane fb s)
  else none

/-- `MemWrite(addr, n, v)` of 00_scope.md R8, `v` as its bytes from `addr` upward. -/
def memWrite (fb : Framebuffer) (addr : Nat) : List Byte → Option Framebuffer
  | [] => some fb
  | b :: bs => (setFbByte fb addr b).bind fun fb' => memWrite fb' (addr + 1) bs

/-! ### WRITE_DIGIT's operands (30_encoding.md R62) -/

/-- The column pattern of a value: `P_GLYPH(val)` for 0..15, else blank; `val` compared as a signed
number (42_framebuffer.md R94). -/
def digitPattern (table : Vector Byte 16) (val : BitVec 16) : Byte :=
  if 0 ≤ val.toInt ∧ val.toInt ≤ 15 then glyphOf table val.toNat else 0x00#8

end Sys2Proof.Machine
end

