-- ==== Sys2Proof/Machine/Flags.lean ====
section
/-! DEFINITION. The block has no condition codes and no operation sets a flag (10_state.md R30,
00_scope.md R10). What it has are status bits, each a view of a register; no host command reads one. -/

namespace Sys2Proof.Machine

/-- `ACT ≠ Idle`. -/
def isBusy (s : State) : Bool :=
  match s.act with
  | .idle => false
  | .busy _ _ _ => true

/-- `XFER ≠ None`: a byte operation is in flight. -/
def isTransferring (s : State) : Bool := s.xfer != .none

/-- `EVT ≠ None`: the completion interrupt is pending (60_exceptions.md R109). -/
def isPending (s : State) : Bool := s.evt != .none

/-- The status bits of 10_state.md R30, gathered. -/
structure StatusBits where
  busy : Bool
  cs : Bool
  rxmode : Bool
  transferring : Bool
  pending : Bool
  faulted : Bool
  refused : Bool
  deriving DecidableEq, Repr

/-- The status bits of a state. -/
def statusBits (s : State) : StatusBits where
  busy := isBusy s
  cs := s.cs
  rxmode := s.rxmode
  transferring := isTransferring s
  pending := isPending s
  faulted := s.fault.isSome
  refused := s.refused

end Sys2Proof.Machine
end

