-- ==== Sys2Proof/Machine/Ops.lean ====
section
/-! DEFINITION. The named operations every meaning and every agent goes through: the Arbiter
(40_arbiter.md), the start and end of a transfer and the transport's completion (41_transfer.md),
the completion interrupt's entry, faults and refusal (60_exceptions.md). -/

namespace Sys2Proof.Machine

/-- `emit` of several bus events, in order (00_scope.md R8). -/
def emit (events : List BusEvent) (s : State) : State := { s with trace := s.trace ++ events }

/-- One host command has been carried out: `HPC` advances by 1 (10_state.md R28). -/
def retire (s : State) : State := { s with hpc := s.hpc + 1 }

/-! ### The Arbiter -/

/-- `lsb(x) = x & (-x)` on 3 bits (00_scope.md R8). -/
def lowestBit (x : BitVec 3) : BitVec 3 := x &&& -x

/-- `ctz(x)`, the index of the lowest set bit of a nonzero `x` on 3 bits (00_scope.md R8). -/
def trailingZeros (x : BitVec 3) : Nat :=
  if x.getLsbD 0 then 0 else if x.getLsbD 1 then 1 else 2

/-- `Select(x)` (40_arbiter.md R71). -/
def selectKind (x : BitVec 3) : Option Kind :=
  if x = 0 then none else kindOf (BitVec.ofNat 2 (trailingZeros (lowestBit x)))

/-- `Byte0(k)`, the opcode byte of a command; for WriteConfig it carries `CFG` (41_transfer.md R78). -/
def openingByte (k : Kind) (cfg : DisplayConfig) : Byte :=
  match k with
  | .wc => displayControlByte cfg.enabled cfg.brightness
  | .rk => readDataByte
  | .ws => writeDataByte

/-- `Start(k)` (41_transfer.md R79): byte 0 is handed to the transport at once. -/
def start (k : Kind) (s : State) : State :=
  emit [.select, .tx (openingByte k s.cfg)]
    { s with
      req := s.req &&& ~~~(kindBit (kindCode k))
      act := .busy (kindCode k) 0 0
      cs := true
      xfer := .tx (openingByte k s.cfg) }

/-- `Dispatch()` (40_arbiter.md R72), run only where `ACT = Idle`. -/
def dispatch (s : State) : State :=
  match selectKind s.req with
  | none => s
  | some k => start k s

/-- `REQUEST(mask)` (40_arbiter.md R73): the active kind is not added again (R74); the block starts the
highest-priority requested kind if it is idle. -/
def requestKinds (mask : BitVec 3) (s : State) : State :=
  match s.act with
  | .idle => dispatch { s with req := s.req ||| mask }
  | .busy k _ _ => { s with req := s.req ||| (mask &&& ~~~(kindBit k)) }

/-! ### The end of a command -/

/-- `Finish()` (41_transfer.md R89): deselect, then chain the next command. -/
def finish (s : State) : State :=
  dispatch { emit [.deselect] s with cs := false, act := .idle }

/-! ### The transport -/

/-- `TransportComplete()` (41_transfer.md R80), `received` being the drawn byte; with no operation in
flight the step is not enabled and nothing changes. -/
def transportComplete (received : Byte) (s : State) : State :=
  match s.xfer with
  | .none => s
  | .tx _ => { s with evt := .done none, xfer := .none }
  | .rx => emit [.rx received] { s with evt := .done (some received), xfer := .none }

/-! ### Faults, refusal, and the completion interrupt -/

/-- `raise Fault(r)` (60_exceptions.md R107). -/
def raiseFault (r : FaultReason) (s : State) : State := { s with fault := some r }

/-- A reserved word is presented: `REFUSED` is set and the word is not executed (60_exceptions.md
R108). -/
def refuseWord (s : State) : State := { s with refused := true }

/-- Entry of the completion interrupt (60_exceptions.md R109, R111): if an event is pending it is
consumed and handed to the handler with the byte it carries. Nothing is saved, there is no vector,
and the return restores nothing (R112). -/
def enterHandler (s : State) : Option (Option Byte × State) :=
  match s.evt with
  | .none => none
  | .done received => some (received, { s with evt := .none })

end Sys2Proof.Machine
end

