-- ==== Sys2Proof/Machine/HostCommands.lean ====
section
/-! DEFINITION. The meanings of the six host commands (40_arbiter.md, 42_framebuffer.md,
43_keys_config.md, 44_init_refresh.md). Each is one indivisible host step (20_memory.md R47). -/

namespace Sys2Proof.Machine

/-- INIT (44_init_refresh.md R102). -/
def execInit (r p : BitVec 14) (s : State) : Answer :=
  let t :=
    { s with
      cfg := ⟨true, s.params.initBrightness⟩
      fb := clearedFb
      rescanMs := r
      repaintMs := p
      t0 := Config.now s.tick }
  .next (retire (if s.params.initRequestsConfig then requestKinds (kindBit (kindCode .wc)) t else t))

/-- REQUEST (40_arbiter.md R73). -/
def execRequest (mask : BitVec 3) (s : State) : Answer := .next (retire (requestKinds mask s))

/-- WRITE_DIGIT (42_framebuffer.md R94). -/
def execWriteDigit (pos : BitVec 8) (val : BitVec 16) (s : State) : Answer :=
  .next (retire
    (if 9 < pos.toNat then s
     else { s with fb := writeColumn s.fb pos.toNat (digitPattern s.params.glyph val) }))

/-- SET_ENABLED (43_keys_config.md R100). -/
def execSetEnabled (en : Bool) (s : State) : Answer :=
  .next (retire
    (requestKinds (kindBit (kindCode .wc)) { s with cfg := { s.cfg with enabled := en } }))

/-- SET_BRIGHTNESS (43_keys_config.md R101). -/
def execSetBrightness (level : BitVec 3) (s : State) : Answer :=
  .next (retire
    (requestKinds (kindBit (kindCode .wc)) { s with cfg := { s.cfg with brightness := level } }))

/-- One step GK_i of a split GET_KEYS, without the advance of `HPC` (43_keys_config.md R98). -/
def readKeyByte (s : State) : State :=
  { s with
    rdata := setByteAt s.rdata s.gkPos.toNat (byteAt s.keys s.gkPos.toNat)
    gkPos := s.gkPos + 1 }

/-- GET_KEYS: in one access (43_keys_config.md R97), or, where `P_SNAPSHOT_READ_ATOMIC` is false, the
next of its four byte reads, `HPC` advancing after GK3 only (R98). -/
def execGetKeys (s : State) : Answer :=
  .next
    (if s.params.snapshotReadAtomic then retire { s with rdata := s.keys }
     else if s.gkPos = 3 then retire (readKeyByte s) else readKeyByte s)

end Sys2Proof.Machine
end

