-- ==== Sys2Proof/Machine/Transfer.lean ====
section
/-! DEFINITION. The Transfer State Machine's handler steps (41_transfer.md section 4). -/

namespace Sys2Proof.Machine

/-- `WC_Final()` (R83). -/
def wcFinal (s : State) : State := finish s

/-- `RK_Step0()` (R84): to receive mode, and the first reception is started. -/
def rkStepZero (s : State) : State :=
  emit [.rxOn, .rxStart] { s with rxmode := true, xfer := .rx, act := .busy (kindCode .rk) 1 0 }

/-- `RK_Mid(s, c, r)` (R85): key byte `c` is staged and the next reception is started. -/
def rkMid (step cursor : BitVec 5) (received : Option Byte) (s : State) : Answer :=
  match received with
  | none => .next (raiseFault .rxByteMissing s)
  | some r =>
    if cursor.toNat < 3 then
      .next (emit [.rxStart]
        { s with
          kstage := setByteAt s.kstage cursor.toNat r
          xfer := .rx
          act := .busy (kindCode .rk) (step + 1) (cursor + 1) })
    else .fault .cursorOutOfRange

/-- `RK_Final(c, r)` (R86): the snapshot is replaced whole, transmit mode is restored. -/
def rkFinal (received : Option Byte) (s : State) : State :=
  match received with
  | none => raiseFault .rxByteMissing s
  | some r => finish (emit [.rxOff] { s with keys := r ++ s.kstage, rxmode := false })

/-- `WS_Payload(s, c)` (R87): payload byte `c` of the framebuffer as it is now. -/
def wsPayload (step cursor : BitVec 5) (s : State) : Answer :=
  match fbByte s.fb cursor.toNat with
  | none => .fault .cursorOutOfRange
  | some b =>
    .next (emit [.tx b]
      { s with xfer := .tx b, act := .busy (kindCode .ws) (step + 1) (cursor + 1) })

/-- `WS_Final()` (R88). -/
def wsFinal (s : State) : State := finish s

/-- The handler step of a command in range, by kind and step (the `case` of R82). -/
def handlerStep (k : Kind) (step cursor : BitVec 5) (received : Option Byte) (s : State) : Answer :=
  match k with
  | .wc => .next (wcFinal s)
  | .rk =>
    if step = 0 then .next (rkStepZero s)
    else if step = 4 then .next (rkFinal received s)
    else rkMid step cursor received s
  | .ws =>
    if step = 16 then .next (wsFinal s) else wsPayload step cursor s

/-- `OnComplete()` after its event is consumed (R82), with the three checks in their order
(60_exceptions.md R110). -/
def onComplete (received : Option Byte) (s : State) : Answer :=
  match s.act with
  | .idle => .next (raiseFault .eventWhileIdle s)
  | .busy code step cursor =>
    match kindOf code with
    | none => .next (raiseFault .badKind s)
    | some k =>
      if totalSteps k ≤ step.toNat then .next (raiseFault .stepOutOfRange s)
      else handlerStep k step cursor received s

end Sys2Proof.Machine
end

