-- ==== Sys2Proof/Machine/WireBytes.lean ====
section
/-! DEFINITION. The meanings of the four wire opcode bytes (30_encoding.md R66 to R68). An opcode byte
is byte 0 of a transfer, sent by `Start` (41_transfer.md R79); what is left of it has two phases, each
an indivisible step of its own: the transport sends it (R80), and the handler takes the transfer's
step 0 (R83, R84, R87). Assumption 12. -/

namespace Sys2Proof.Machine

/-- The wire byte `b` is on the bus: `XFER = Tx(b)`. -/
def onBus (b : Byte) (s : State) : Bool := s.xfer == .tx b

/-- The handler phase of the opcode byte of kind `k`: the event that reports it sent is pending, and
the active command is at its step 0. -/
def openingStep (k : Kind) (s : State) : Answer :=
  match s.act, enterHandler s with
  | .busy code step _, some (received, t) =>
    if code = kindCode k ∧ step = 0 then onComplete received t else .fault .wireByteNotDue
  | _, _ => .fault .wireByteNotDue

/-- An opcode byte `b` of kind `k`: sent if it is on the bus, else its handler step if that is due. -/
def wireOpcode (b : Byte) (k : Kind) (s : State) : Answer :=
  if onBus b s then .next (transportComplete 0 s) else openingStep k s

/-- WIRE_DISPLAY_CONTROL: the transport sends it (R80), then the step of WriteConfig is taken (R83). -/
def execWireDisplayControl (enabled : Bool) (brightness : BitVec 3) (s : State) : Answer :=
  wireOpcode (displayControlByte enabled brightness) .wc s

/-- WIRE_READ_DATA: the transport sends it (R80), then step 0 of ReadKeys is taken (R84). -/
def execWireReadData (s : State) : Answer := wireOpcode readDataByte .rk s

/-- WIRE_WRITE_DATA: the transport sends it (R80), then step 0 of WriteSegments is taken (R87). -/
def execWireWriteData (s : State) : Answer := wireOpcode writeDataByte .ws s

/-- WIRE_SET_ADDRESS: if it were on the bus the transport would send it as it sends any byte (R80). It
is byte 0 of no command, so no handler step belongs to it (R68). -/
def execWireSetAddress (addr : BitVec 4) (s : State) : Answer :=
  if onBus (setAddressByte addr) s then .next (transportComplete 0 s) else .fault .wireByteNotDue

end Sys2Proof.Machine
end

