-- ==== Sys2Proof/Machine/Dispatch.lean ====
section
/-! DEFINITION. One arm for each instruction: its meaning. -/

namespace Sys2Proof.Machine

def exec (i : Instr) (s : State) : Host.Outcome State Fault Refusal :=
  match i with
  | .init r p => Sys2Proof.Machine.execInit r p s
  | .request mask => Sys2Proof.Machine.execRequest mask s
  | .writeDigit pos val => Sys2Proof.Machine.execWriteDigit pos val s
  | .setEnabled en => Sys2Proof.Machine.execSetEnabled en s
  | .setBrightness level => Sys2Proof.Machine.execSetBrightness level s
  | .getKeys => Sys2Proof.Machine.execGetKeys s
  | .wireDisplayControl enabled brightness => Sys2Proof.Machine.execWireDisplayControl enabled brightness s
  | .wireReadData => Sys2Proof.Machine.execWireReadData s
  | .wireWriteData => Sys2Proof.Machine.execWireWriteData s
  | .wireSetAddress addr => Sys2Proof.Machine.execWireSetAddress addr s

end Sys2Proof.Machine
end

