-- ==== Sys2Proof/Machine/Agents.lean ====
section
/-! DEFINITION. The agents' steps and who moves next (10_state.md R11, 20_memory.md R47). A step takes one
turn: the next turn of `State.agenda`, or a free one. A turn whose agent has no enabled step passes.
Assumption 2. -/

namespace Sys2Proof.Machine

/-! ### What each agent fetches -/

/-- The host command word at `HPC`, decoded; none where the host's program has ended (10_state.md R28). -/
def fetchHost (s : State) : Option Decoded := (s.program[s.hpc]?).map decodeHost

/-- The opcode byte on the bus, decoded: a transmitted byte is an opcode exactly at step 0 of a
transfer (30_encoding.md R67). -/
def fetchWire (s : State) : Option Decoded :=
  match s.act, s.xfer with
  | .busy _ step _, .tx b => if step = 0 then some (decodeWire b) else none
  | _, _ => none

/-! ### Which agents have an enabled step -/

/-- Whether the agent of a turn has an enabled step. After a fault none has (60_exceptions.md R107);
after a refusal the host has none (R108). -/
def isEnabled (t : Turn) (s : State) : Bool :=
  s.fault.isNone &&
    match t with
    | .host => !s.refused && decide (s.hpc < s.program.length)
    | .handler => isPending s
    | .transport _ => isTransferring s
    | .rescan => s.rescanMs != 0
    | .repaint => s.repaintMs != 0

/-- Whether some agent has an enabled step. -/
def anyEnabled (s : State) : Bool :=
  isEnabled .host s || isEnabled .handler s || isEnabled (.transport 0) s || isEnabled .rescan s ||
    isEnabled .repaint s

/-! ### The agents' steps -/

/-- The host's step: the fetched command is executed, or a reserved word refused (60_exceptions.md R108). -/
def hostStep (s : State) : Answer :=
  match fetchHost s with
  | some (.instr i) => exec i s
  | some (.reserved _) => .next (refuseWord s)
  | none => .next s

/-- The transport's step (41_transfer.md R80): an opcode byte on the bus is executed, any other operation
completes. -/
def transportStep (received : Byte) (s : State) : Answer :=
  match fetchWire s with
  | some (.instr i) => exec i s
  | _ => .next (transportComplete received s)

/-- The handler's step (41_transfer.md R82). -/
def handlerTurn (s : State) : Answer :=
  match enterHandler s with
  | some (received, t) => onComplete received t
  | none => .next s

/-- `FireRescan()` (44_init_refresh.md R103). -/
def fireRescan (s : State) : State := requestKinds (kindBit (kindCode .rk)) s

/-- `FireRepaint()` (44_init_refresh.md R104). -/
def fireRepaint (s : State) : State := requestKinds (kindBit (kindCode .ws)) s

/-- The step of the agent whose turn it is; a turn with no enabled step passes. -/
def takeTurn (t : Turn) (s : State) : Answer :=
  if isEnabled t s then
    match t with
    | .host => hostStep s
    | .handler => handlerTurn s
    | .transport received => transportStep received s
    | .rescan => .next (fireRescan s)
    | .repaint => .next (fireRepaint s)
  else .next s

/-! ### The order of turns -/

/-- The turn that is next: the agenda's first, or a free one. -/
def nextTurn (s : State) : Turn :=
  match s.agenda with
  | [] => Config.turn s.tick
  | t :: _ => t

/-- The turn is used up. -/
def consumeTurn (s : State) : State := { s with agenda := s.agenda.tail, tick := s.tick + 1 }

/-! ### No agent has a step -/

/-- A good end of a run (70_reset_and_hazards.md R125). -/
def atGoodEnd (s : State) : Bool :=
  s.hpc == s.program.length && s.act == .idle && s.req == 0 && s.xfer == .none && s.evt == .none &&
    s.fault.isNone && !s.refused

/-- What a step answers when no agent has one: the fault that stopped the block (60_exceptions.md R107);
the refusal that stopped the host (R108); at a good end the block rests with all its state unchanged
(R120); else it is stuck (93_implementation_defined.md U4). Assumption 10. -/
def quiescent (s : State) : Answer :=
  match s.fault with
  | some r => .fault (.blockFault r)
  | none =>
    if s.refused then .refused .reservedWord
    else if atGoodEnd s then .next s
    else .fault .stuck

/-- One step of the machine. -/
def advance (s : State) : Answer :=
  if anyEnabled s then takeTurn (nextTurn s) (consumeTurn s) else quiescent s

/-! ### Placing an instruction where it is fetched -/

/-- The program with `w` at index `n`. -/
def placeWord (program : List Word) (n : Nat) (w : Word) : List Word :=
  (program ++ List.replicate (n + 1 - program.length) 0).set n w

/-- The kind whose step 0 an opcode byte stands at; a set-address byte stands at none, and
WriteSegments, whose peripheral address it would set, is taken for it. -/
def openingKind (b : Byte) : Kind :=
  match decodeWire b with
  | .instr (.wireDisplayControl _ _) => .wc
  | .instr .wireReadData => .rk
  | _ => .ws

/-- `s` with an instruction where it is fetched next, and the turn of the agent that fetches it: a host
command word at `HPC` for the host; an opcode byte on the bus for the transport, byte 0 of its
command's transfer, the chip selected. Assumption 1. -/
def placeInstruction (s : State) (c : CodeWord) : State :=
  match c with
  | .cmd32 w =>
    { s with
      program := placeWord s.program s.hpc w
      agenda := .host :: s.agenda
      fault := none
      refused := false }
  | .wire8 b =>
    { s with
      act := .busy (kindCode (openingKind b)) 0 0
      cs := true
      xfer := .tx b
      agenda := .transport 0 :: s.agenda
      fault := none }

end Sys2Proof.Machine
end

