-- ==== Sys2Proof/Machine/Step.lean ====
section
/-! DEFINITION. One step of the machine, and the placing of an instruction where it is fetched. -/

namespace Sys2Proof.Machine

/-- One step (20_memory.md R47). -/
def step (s : State) : Host.Outcome State Fault Refusal := advance s

/-- `s` with the table word `w` of `nbits` bits where the next step fetches it. -/
def State.withFetchWord (s : State) (nbits w : Nat) : State :=
  placeInstruction s (codeWordOf nbits w)

end Sys2Proof.Machine
end

