-- ==== Sys2Proof/Machine/Assembly.lean ====
section
/-! DEFINITION. The assembly text of a host command (30_encoding.md R69); wire bytes have none. -/

namespace Sys2Proof.Machine

/-- A decimal number, with its sign. -/
def decimal (v : Int) : String :=
  match v with
  | .ofNat n => toString n
  | .negSucc n => "-" ++ toString (n + 1)

/-- The kinds of a mask, `K{|K}` of R69; the empty mask has no such text. -/
def kindsText (mask : BitVec 3) : String :=
  String.intercalate "|"
    ((if mask.getLsbD 0 then ["wc"] else []) ++ (if mask.getLsbD 1 then ["rk"] else []) ++
      (if mask.getLsbD 2 then ["ws"] else []))

/-- One command as a line of text; the empty request is written by its pseudo-instruction `nop` (R70). -/
def assemblyText : Instr → Option String
  | .init r p => some ("init " ++ decimal r.toNat ++ ", " ++ decimal p.toNat)
  | .request mask => some (if mask = 0 then "nop" else "request " ++ kindsText mask)
  | .writeDigit pos val => some ("write_digit " ++ decimal pos.toNat ++ ", " ++ decimal val.toInt)
  | .setEnabled en => some ("set_enabled " ++ (if en then "1" else "0"))
  | .setBrightness level => some ("set_brightness " ++ decimal level.toNat)
  | .getKeys => some "get_keys"
  | .wireDisplayControl _ _ => none
  | .wireReadData => none
  | .wireWriteData => none
  | .wireSetAddress _ => none

end Sys2Proof.Machine
end

