-- ==== Sys2Proof/Machine/BusTrace.lean ====
section
/-! DEFINITION. Reading the bus trace: which byte is an opcode (30_encoding.md R67), and the framing of
whole transfers as an automaton over bus events (41_transfer.md R90). -/

namespace Sys2Proof.Machine

/-- The opcode bytes of a trace, in order: the first `Tx` after each `Select`. -/
def opcodes : List BusEvent → List Byte
  | [] => []
  | .select :: .tx b :: rest => b :: opcodes rest
  | _ :: rest => opcodes rest

/-- The instruction each opcode byte of a trace stands for. -/
def opcodeInstrs (trace : List BusEvent) : List Decoded := (opcodes trace).map decodeWire

/-- Where the bus stands in the sequences of 41_transfer.md R90. -/
inductive BusPos where
  /-- chip-select deasserted -/
  | released
  /-- selected, no byte yet -/
  | selected
  /-- the display-control byte sent -/
  | configSent
  /-- `0x42` sent, still in transmit mode -/
  | readSent
  /-- in receive mode, `n` bytes received, no reception outstanding -/
  | received (n : Nat)
  /-- in receive mode, `n` bytes received, one reception outstanding -/
  | receiving (n : Nat)
  /-- transmit mode restored after the fourth byte -/
  | readOver
  /-- `0x40` and `n` payload bytes sent -/
  | payload (n : Nat)
  deriving DecidableEq, Repr

/-- The position after byte 0, by the class of the byte. -/
def afterOpcode (b : Byte) : Option BusPos :=
  match decodeWire b with
  | .instr (.wireDisplayControl _ _) => some .configSent
  | .instr .wireReadData => some .readSent
  | .instr .wireWriteData => some (.payload 0)
  | _ => none

/-- The position after one more event; none where R90's sequences do not allow it. -/
def busNext (p : BusPos) (e : BusEvent) : Option BusPos :=
  match p, e with
  | .released, .select => some .selected
  | .selected, .tx b => afterOpcode b
  | .configSent, .deselect => some .released
  | .readSent, .rxOn => some (.received 0)
  | .received n, .rxStart => if n < 4 then some (.receiving n) else none
  | .receiving n, .rx _ => some (.received (n + 1))
  | .received n, .rxOff => if n = 4 then some .readOver else none
  | .readOver, .deselect => some .released
  | .payload n, .tx _ => if n < 16 then some (.payload (n + 1)) else none
  | .payload n, .deselect => if n = 16 then some .released else none
  | _, _ => none

/-- The position after a whole trace; none where it breaks the sequences. -/
def busPos (trace : List BusEvent) : Option BusPos :=
  trace.foldl (fun p e => p.bind fun q => busNext q e) (some .released)

end Sys2Proof.Machine
end

