-- ==== Sys2Proof/Machine/Cadence.lean ====
section
/-! DEFINITION. The timing contracts: the triggers' cadence (44_init_refresh.md R105) and the settle
delays (70_reset_and_hazards.md R134). The machine has no time: no step depends on these. -/

namespace Sys2Proof.Machine

/-- The time of the `n`-th rescan firing, `T0 + n*R` for `n ≥ 1`, if `R > 0`. -/
def rescanTime (t0 r n : Nat) : Option Nat := if 0 < r ∧ 1 ≤ n then some (t0 + n * r) else none

/-- The time of the `n`-th repaint firing: `T0 + R + floor(R/2) + n*P` for `n ≥ 0` if `R > 0`,
`T0 + n*P` for `n ≥ 1` if `R = 0`; none if `P = 0`. -/
def repaintTime (t0 r p n : Nat) : Option Nat :=
  if p = 0 then none
  else if 0 < r then some (t0 + r + r / 2 + n * p)
  else if 1 ≤ n then some (t0 + n * p)
  else none

/-- The rescan firings of a state after its INIT. -/
def rescanTimeOf (s : State) (n : Nat) : Option Nat := rescanTime s.t0 s.rescanMs.toNat n

/-- The repaint firings of a state after its INIT. -/
def repaintTimeOf (s : State) (n : Nat) : Option Nat :=
  repaintTime s.t0 s.rescanMs.toNat s.repaintMs.toNat n

/-- How many of the firings 0..`limit` of a schedule fall in `(from, to]`. -/
def firingsIn (time : Nat → Option Nat) (start stop limit : Nat) : Nat :=
  ((List.range (limit + 1)).filter fun n =>
    match time n with
    | some t => decide (start < t ∧ t ≤ stop)
    | none => false).length

/-- The settle delays a trace has taken: `T_SETTLE` after each select and each deselect. -/
def settleTime (tSettle : Nat) (trace : List BusEvent) : Nat :=
  tSettle * (trace.filter fun e => e == .select || e == .deselect).length

end Sys2Proof.Machine
end

