-- ==== Sys2Proof/Machine/Runs.lean ====
section
/-! DEFINITION. Runs of the machine under a schedule, and the weak fairness the model asks of the transport
and of the handler (41_transfer.md R80, 60_exceptions.md R121, the spec's decision D30). A schedule names
the turn of every step, with the byte drawn on each turn of the transport: it is no part of the state,
and every order of steps (20_memory.md R47) is some schedule. Assumption 2. -/

namespace Sys2Proof.Machine

/-- `s` with `t` chosen as the next turn. -/
def choose (t : Turn) (s : State) : State := { s with agenda := [t] }

/-- The state after one turn, chosen as `t`; where the machine has stopped the state stays. -/
def afterTurn (t : Turn) (s : State) : State :=
  match step (choose t s) with
  | .next u => u
  | .fault _ => s
  | .refused _ => s

/-- The state after `n` turns of the schedule `sched` from `s`. -/
def runAt (sched : Nat → Turn) (s : State) : Nat → State
  | 0 => s
  | n + 1 => afterTurn (sched n) (runAt sched s n)

/-- A turn of the transport, whatever byte it draws. -/
def isTransportTurn : Turn → Bool
  | .transport _ => true
  | .host => false
  | .handler => false
  | .rescan => false
  | .repaint => false

/-- A turn of the handler. -/
def isHandlerTurn : Turn → Bool
  | .handler => true
  | .host => false
  | .transport _ => false
  | .rescan => false
  | .repaint => false

/-- Weak fairness of the agent whose turns are `mine`: if from some turn on it always has an enabled step,
its turn comes. -/
def WeaklyFair (mine : Turn → Bool) (sched : Nat → Turn) (s : State) : Prop :=
  ∀ n, (∀ m, n ≤ m → ∃ t, mine t = true ∧ isEnabled t (runAt sched s m) = true) →
    ∃ m, n ≤ m ∧ mine (sched m) = true

/-- The fairness of R121: an enabled `TransportComplete` is eventually taken, a pending event is eventually
handled. Nothing is asked of the host or of the triggers (70_reset_and_hazards.md R135). -/
def FairSchedule (sched : Nat → Turn) (s : State) : Prop :=
  WeaklyFair isTransportTurn sched s ∧ WeaklyFair isHandlerTurn sched s

/-- Turn `n` of a run is a step of the handler. -/
def handlesAt (sched : Nat → Turn) (s : State) (n : Nat) : Bool :=
  isHandlerTurn (sched n) && isEnabled .handler (runAt sched s n)

/-- How many events the handler consumes in the `d` turns from turn `n` on. -/
def eventsHandled (sched : Nat → Turn) (s : State) (n : Nat) : Nat → Nat
  | 0 => 0
  | d + 1 => eventsHandled sched s n d + (if handlesAt sched s (n + d) then 1 else 0)

/-- How many commands a run has ended: the `Deselect` events of its trace. -/
def deselects (s : State) : Nat := s.trace.count .deselect

/-- From turn `n` on no kind of higher priority than `k` enters the RequestedSet: the proviso of R121. -/
def HigherNotRerequested (k : Kind) (sched : Nat → Turn) (s : State) (n : Nat) : Prop :=
  ∀ m, n ≤ m → ∀ j, j < (kindCode k).toNat →
    (runAt sched s (m + 1)).req.getLsbD j = true → (runAt sched s m).req.getLsbD j = true

end Sys2Proof.Machine
end

