-- ==== Sys2Proof/Safety.lean ====
section
/-! DEFINITION. What counts as a safe run, in the terms the claims use: the invariants of 10_state.md
section 6, the framing of the bus, and the launch predicates of 70_reset_and_hazards.md R136. -/

namespace Sys2Proof.Machine

/-! ### The invariants of 10_state.md section 6 -/

/-- The legal values of `ACT` (R14). -/
def ActLegal (s : State) : Prop :=
  ∀ code step cursor, s.act = .busy code step cursor →
    ∃ k, kindOf code = some k ∧ step.toNat < totalSteps k ∧ cursor.toNat ≤ 16

/-- R33: the active kind is absent from the RequestedSet. -/
def ActiveNotRequested (s : State) : Prop :=
  ∀ code step cursor, s.act = .busy code step cursor → s.req &&& kindBit code = 0

/-- R34: an idle block is quiet. -/
def IdleIsQuiet (s : State) : Prop :=
  s.act = .idle →
    s.req = 0 ∧ s.cs = false ∧ s.rxmode = false ∧ s.xfer = .none ∧ s.evt = .none

/-- R35: a busy block is selected, and exactly one byte operation is in flight or awaiting its handler. -/
def BusyIsFramed (s : State) : Prop :=
  s.act ≠ .idle → s.cs = true ∧ (s.xfer ≠ .none ↔ s.evt = .none)

/-- R36: receive mode is exactly ReadKeys steps 1 to 4, and only there is a byte received. -/
def RxModeTracksStep (s : State) : Prop :=
  (s.rxmode = true ↔
    ∃ step cursor, s.act = .busy (kindCode .rk) step cursor ∧ 1 ≤ step.toNat ∧ step.toNat ≤ 4) ∧
  (s.xfer = .rx → s.rxmode = true) ∧
  (∀ r, s.evt = .done (some r) → s.rxmode = true)

/-- The converse R36 leaves to R84 and R85: in receive mode the operation in flight is a reception, and
its event carries a byte. -/
def ReceivesInRxMode (s : State) : Prop :=
  s.rxmode = true → (∀ b, s.xfer ≠ .tx b) ∧ s.evt ≠ .done none

/-- R37: the cursor follows the step. -/
def CursorTracksStep (s : State) : Prop :=
  ∀ code step cursor, s.act = .busy code step cursor →
    (code = kindCode .ws → cursor = step) ∧
    (code = kindCode .rk → cursor.toNat = step.toNat - 1) ∧
    (code = kindCode .wc → step = 0 ∧ cursor = 0)

/-- `Invariants` of 70_reset_and_hazards.md R136: rules R33 to R37 of 10_state.md hold, and nothing more.
R32 (at most one command in flight) holds by the type of `ACT`. -/
structure Invariants (s : State) : Prop where
  activeNotRequested : ActiveNotRequested s
  idleIsQuiet : IdleIsQuiet s
  busyIsFramed : BusyIsFramed s
  rxModeTracksStep : RxModeTracksStep s
  cursorTracksStep : CursorTracksStep s

/-- What every step keeps: `Invariants`, with the legal values of `ACT` (R14), the converse of R36 that R84
and R85 give, and no fault. It is stronger than `Invariants`, which alone a step need not keep: an event
with no byte in receive mode meets `Invariants` and faults. -/
structure StepInvariant (s : State) : Prop extends Invariants s where
  legal : ActLegal s
  receivesInRxMode : ReceivesInRxMode s
  noFault : s.fault = none

/-! ### The framing of the bus (41_transfer.md R90) -/

/-- Where the bus must stand for the sequencer's position and the byte in flight. -/
def expectedBusPos (s : State) : BusPos :=
  match s.act with
  | .idle => .released
  | .busy code step _ =>
    match kindOf code with
    | none => .released
    | some .wc => .configSent
    | some .ws => .payload step.toNat
    | some .rk =>
      if step = 0 then .readSent
      else
        match s.evt with
        | .done _ => .received step.toNat
        | .none => .receiving (step.toNat - 1)

/-- The trace is a run of whole sequences followed by the part sent of the active one. -/
def Framed (s : State) : Prop := busPos s.trace = some (expectedBusPos s)

/-! ### The framebuffer's unused slots, and the host's position -/

/-- Digit slots 10..15 are dark in every plane (20_memory.md R41). -/
def UnusedSlotsDark (fb : Framebuffer) : Prop :=
  ∀ (s : Fin 8) (d : Nat), 10 ≤ d → fbBit fb s d = false

/-- `HPC` is within the host's program (10_state.md R28). -/
def HpcInRange (s : State) : Prop := s.hpc ≤ s.program.length

/-- A split GET_KEYS that is under way is the command at `HPC`: the host issues no other until GK3 has
run (43_keys_config.md R98). -/
def SplitReadHeld (s : State) : Prop :=
  s.gkPos ≠ 0 → s.params.snapshotReadAtomic = false ∧ fetchHost s = some (.instr .getKeys)

/-! ### Terms of the statements -/

/-- The kind of the lowest set bit of `x`: the highest priority among the kinds in `x` (40_arbiter.md
R71), said without `Select`. -/
def HighestPriority (k : Kind) (x : BitVec 3) : Prop :=
  x.getLsbD (kindCode k).toNat = true ∧ ∀ j, j < (kindCode k).toNat → x.getLsbD j = false

/-- No fault, and the next turn is `t`. -/
def TurnIs (t : Turn) (s : State) : Prop := s.fault = none ∧ nextTurn s = t

/-- The handler's turn has come with an event pending that carries `r`. -/
def HandlerTakes (r : Option Byte) (s : State) : Prop := TurnIs .handler s ∧ s.evt = .done r

/-- `n` times the turns of the transport and then the handler: the `<step>` of 95_test_vectors.md. -/
def byteSteps (n : Nat) : List Turn := (List.replicate n [.transport 0, .handler]).flatten

/-! ### Launch predicates (70_reset_and_hazards.md R136) -/

/-- Every register at its value in the table of R123. -/
def ResetState (s : State) : Prop :=
  s.req = 0b000#3 ∧ s.act = .idle ∧ s.cfg = ⟨false, 0⟩ ∧ (∀ p, plane s.fb p = 0x0000#16) ∧
  s.keys = 0x00000000#32 ∧ s.rdata = 0x00000000#32 ∧ s.rescanMs = 0 ∧ s.repaintMs = 0 ∧
  s.cs = false ∧ s.rxmode = false ∧ s.xfer = .none ∧ s.evt = .none ∧ s.kstage = 0 ∧
  s.trace = [] ∧ s.fault = none ∧ s.refused = false ∧ s.hpc = 0

/-- Nothing is in flight. -/
def Quiet (s : State) : Prop :=
  s.act = .idle ∧ s.req = 0 ∧ s.xfer = .none ∧ s.evt = .none ∧ s.cs = false ∧ s.rxmode = false

/-- Neither a fault nor a refusal. -/
def NoFault (s : State) : Prop := s.fault = none ∧ s.refused = false

/-- The state INIT leaves. -/
def Inited (r p : BitVec 14) (s : State) : Prop :=
  s.cfg = ⟨true, s.params.initBrightness⟩ ∧ s.rescanMs = r ∧ s.repaintMs = p ∧ UnusedSlotsDark s.fb

end Sys2Proof.Machine
end

