-- ==== Sys2Proof/Certificates/Slice0/Obligations.lean ====
section
/-! DEFINITION. The statements for the provers. Each says which rule of spec/ it formalises. A statement
over `nextTurn` or over a drawn byte holds for every value of the free choices (assumptions 2, 3),
and a statement over every state holds for every value of the parameters (assumption 4). -/

open Sys2Proof Sys2Proof.Machine

/-! ### Encoding -/

/-- 30_encoding.md sections 1 and 2: no bit of an encoding is dropped. -/
def Obligations.DecodeOfEncodeIsIdentity : Prop :=
  ∀ i : Instr, i.wf = true → decode (encode i) = .instr i

/-- 30_encoding.md sections 1 and 2: a word or byte has one meaning, and it is well-formed. -/
def Obligations.EncodeOfDecodeIsIdentity : Prop :=
  ∀ (c : CodeWord) (i : Instr), decode c = .instr i → i.wf = true ∧ encode i = c

/-- 30_encoding.md R63 (the spec's decision D21): the reserved host words are those with a reserved
operation code and those with a 1 in a must-be-zero bit, and no others. -/
def Obligations.HostWordsReservedExactly : Prop :=
  ∀ w : Word,
    (∃ why, decode (.cmd32 w) = .reserved why) ↔
      (field w 28 4).toNat = 0 ∨ 7 ≤ (field w 28 4).toNat ∨
      ((field w 28 4).toNat = 2 ∧ field w 3 25 ≠ 0) ∨
      ((field w 28 4).toNat = 3 ∧ field w 16 12 ≠ 0) ∨
      ((field w 28 4).toNat = 4 ∧ field w 1 27 ≠ 0) ∨
      ((field w 28 4).toNat = 5 ∧ field w 3 25 ≠ 0) ∨
      ((field w 28 4).toNat = 6 ∧ field w 0 28 ≠ 0)

/-- Words of the vector table of 95_test_vectors.md section 2.1, one of each row, and the wire bytes. -/
def Obligations.SpecWordsDecode : Prop :=
  decode (.cmd32 0x10028014#32) = .instr (.init 10#14 20#14) ∧
  decode (.cmd32 0x20000007#32) = .instr (.request 0b111#3) ∧
  decode (.cmd32 0x300003FF#32) = .instr (.writeDigit 3#8 (-1)) ∧
  decode (.cmd32 0x40000001#32) = .instr (.setEnabled true) ∧
  decode (.cmd32 0x50000007#32) = .instr (.setBrightness 7#3) ∧
  decode (.cmd32 0x60000000#32) = .instr .getKeys ∧
  decode (.wire8 0x8B#8) = .instr (.wireDisplayControl true 3#3) ∧
  decode (.wire8 0x42#8) = .instr .wireReadData ∧
  decode (.wire8 0x40#8) = .instr .wireWriteData ∧
  decode (.wire8 0xC5#8) = .instr (.wireSetAddress 5#4)

/-- 30_encoding.md R66: the display-control byte, its layout, its 16 values, and that it is byte 0 and
the only byte of a WriteConfig. -/
def Obligations.DisplayControlByteLayout : Prop :=
  ∀ s : State,
    ∃ b : Byte,
      (start .wc s).xfer = .tx b ∧ totalSteps .wc = 1 ∧
      b = 0x80#8 ||| (if s.cfg.enabled then 0x08#8 else 0x00#8) ||| s.cfg.brightness.setWidth 8 ∧
      field b 4 4 = 0b1000#4 ∧ b.getLsbD 3 = s.cfg.enabled ∧ field b 0 3 = s.cfg.brightness ∧
      (if s.cfg.enabled then 0x88 ≤ b.toNat ∧ b.toNat ≤ 0x8F else 0x80 ≤ b.toNat ∧ b.toNat ≤ 0x87)

/-- 41_transfer.md R78, the table: byte 0 and the number of steps of each kind; with 30_encoding.md R67,
what each byte 0 decodes to; with R68, that no byte 0 is a set-address byte. -/
def Obligations.OpeningBytesAndLengths : Prop :=
  ∀ cfg : DisplayConfig,
    openingByte .wc cfg =
      0x80#8 ||| (if cfg.enabled then 0x08#8 else 0x00#8) ||| cfg.brightness.setWidth 8 ∧
    openingByte .rk cfg = 0x42#8 ∧ openingByte .ws cfg = 0x40#8 ∧
    totalSteps .wc = 1 ∧ totalSteps .rk = 5 ∧ totalSteps .ws = 17 ∧
    decode (.wire8 (openingByte .wc cfg)) = .instr (.wireDisplayControl cfg.enabled cfg.brightness) ∧
    decode (.wire8 (openingByte .rk cfg)) = .instr .wireReadData ∧
    decode (.wire8 (openingByte .ws cfg)) = .instr .wireWriteData ∧
    ∀ (k : Kind) (addr : BitVec 4), openingByte k cfg ≠ 0xC0#8 ||| addr.setWidth 8

/-- 30_encoding.md R70: the pseudo-instructions' words, and that each decodes to its expansion. -/
def Obligations.PseudoInstructionsExpand : Prop :=
  encode (Pseudo.requestReadKeys).expand = .cmd32 0x20000002#32 ∧
  encode (Pseudo.readKeys).expand = .cmd32 0x20000002#32 ∧
  encode (Pseudo.requestConfig).expand = .cmd32 0x20000001#32 ∧
  encode (Pseudo.repaint).expand = .cmd32 0x20000004#32 ∧
  encode (Pseudo.rescan).expand = .cmd32 0x20000002#32 ∧
  encode (Pseudo.nop).expand = .cmd32 0x20000000#32 ∧
  (∀ pos : BitVec 8,
    encode (Pseudo.blankDigit pos).expand = .cmd32 (0x300000FF#32 ||| (pos.setWidth 32 <<< 8))) ∧
  ∀ p : Pseudo, decode (encode p.expand) = .instr p.expand

/-! ### A step and what it runs -/

/-- 20_memory.md R47 with the model's turns (assumption 2): on the host's turn, a step is the command at
`HPC`, on the state whose turn is used up. -/
def Obligations.StepRunsHostCommand : Prop :=
  ∀ (s : State) (w : Word) (i : Instr),
    TurnIs .host s → s.refused = false → s.program[s.hpc]? = some w → decode (.cmd32 w) = .instr i →
    step s = exec i { s with agenda := s.agenda.tail, tick := s.tick + 1 }

/-- 30_encoding.md R67 with the model's turns (assumptions 2, 12): on the transport's turn, with byte 0
of a transfer on the bus, a step is the wire byte's instruction. -/
def Obligations.StepRunsWireByte : Prop :=
  ∀ (s : State) (r b : Byte) (code : BitVec 2) (cursor : BitVec 5) (i : Instr),
    TurnIs (.transport r) s → s.act = .busy code 0 cursor → s.xfer = .tx b →
    decode (.wire8 b) = .instr i →
    step s = exec i { s with agenda := s.agenda.tail, tick := s.tick + 1 }

/-- The rows of spec/opcode_table.json ("its step is rule R83", "R84", R87): when the handler takes step
0 of a transfer, the step is the opcode byte's instruction in its handler phase (assumption 12). -/
def Obligations.HandlerTurnTakesOpcodeStep : Prop :=
  ∀ (s : State) (r : Option Byte) (cursor : BitVec 5) (enabled : Bool) (brightness : BitVec 3),
    HandlerTakes r s → s.xfer = .none →
    (s.act = .busy (kindCode .wc) 0 cursor →
      step s = exec (.wireDisplayControl enabled brightness) (consumeTurn s)) ∧
    (s.act = .busy (kindCode .rk) 0 cursor → step s = exec .wireReadData (consumeTurn s)) ∧
    (s.act = .busy (kindCode .ws) 0 cursor → step s = exec .wireWriteData (consumeTurn s))

/-- 60_exceptions.md R108: a reserved word is not executed, it sets `REFUSED`; from then on the host's
turns pass without a step, and an enabled turn of any other agent takes the step it would take without
the refusal, and keeps `REFUSED` (turns: assumptions 2, 9). -/
def Obligations.ReservedWordIsRefused : Prop :=
  ∀ (s : State) (w : Word) (why : Reserved),
    (TurnIs .host s → s.refused = false → s.program[s.hpc]? = some w →
      decode (.cmd32 w) = .reserved why →
      step s = .next { s with refused := true, agenda := s.agenda.tail, tick := s.tick + 1 }) ∧
    (TurnIs .host s → s.refused = true →
      (s.xfer ≠ .none ∨ s.evt ≠ .none ∨ s.rescanMs ≠ 0 ∨ s.repaintMs ≠ 0) →
      step s = .next { s with agenda := s.agenda.tail, tick := s.tick + 1 }) ∧
    (∀ u, s.refused = true → nextTurn s ≠ .host → isEnabled (nextTurn s) s = true →
      step { s with refused := false } = .next u → step s = .next { u with refused := true })

/-- 60_exceptions.md R107: once `FAULT` is set no agent has a step. -/
def Obligations.FaultStopsEveryAgent : Prop :=
  ∀ (s : State) (r : FaultReason), s.fault = some r → step s = .fault (.blockFault r)

/-- 60_exceptions.md R120 at a good end of 70_reset_and_hazards.md R125: with no trigger enabled the
block rests, all its state unchanged (assumption 10). -/
def Obligations.GoodEndRests : Prop :=
  ∀ s : State,
    Quiet s → NoFault s → s.hpc = s.program.length → s.rescanMs = 0 → s.repaintMs = 0 →
    step s = .next s

/-- Assumption 2 (DESIGN CHOICE): the turn of an agent with no enabled step passes, and changes nothing
but the turn. -/
def Obligations.DisabledTurnPasses : Prop :=
  ∀ s : State,
    anyEnabled s = true →
    (nextTurn s = .handler → s.evt = .none → step s = .next (consumeTurn s)) ∧
    (∀ r, nextTurn s = .transport r → s.xfer = .none → step s = .next (consumeTurn s)) ∧
    (nextTurn s = .rescan → s.rescanMs = 0 → step s = .next (consumeTurn s)) ∧
    (nextTurn s = .repaint → s.repaintMs = 0 → step s = .next (consumeTurn s)) ∧
    (nextTurn s = .host → (s.program.length ≤ s.hpc ∨ s.refused = true) →
      step s = .next (consumeTurn s))

/-! ### Reset -/

/-- 70_reset_and_hazards.md R123 (the spec's decision D13); the parameters' defaults of 00_scope.md R6 and
42_framebuffer.md R93 (assumption 4; the glyph entries other than 7 are PRESUMED); and, by the model's
choice, its own fields at the values of assumptions 1, 2, 6 and 7. -/
def Obligations.ResetLeavesTable : Prop :=
  ResetState State.reset ∧
  State.reset.program = [] ∧ State.reset.agenda = [] ∧ State.reset.tick = 0 ∧
  State.reset.gkPos = 0 ∧ State.reset.t0 = 0 ∧
  State.reset.params.snapshotReadAtomic = true ∧ State.reset.params.glyph = defaultGlyph

/-- 70_reset_and_hazards.md R136: every state that is a reset state is quiet, without a fault, and meets
the invariants; so it meets what every step keeps, and the bus is released. `State.reset` is one. -/
def Obligations.ResetMeetsInvariants : Prop :=
  (∀ s : State, ResetState s →
    Quiet s ∧ NoFault s ∧ Invariants s ∧ StepInvariant s ∧ Framed s ∧ UnusedSlotsDark s.fb ∧
    HpcInRange s) ∧
  ResetState State.reset ∧
  Quiet State.reset ∧ NoFault State.reset ∧ StepInvariant State.reset ∧ Framed State.reset ∧
  UnusedSlotsDark State.reset.fb ∧ HpcInRange State.reset ∧ SplitReadHeld State.reset ∧
  glyphTableOk State.reset.params.glyph = true

/-! ### The Arbiter -/

/-- 40_arbiter.md R71: `Select`, as the lowest set bit and as the whole table. -/
def Obligations.SelectTakesLowestSetBit : Prop :=
  (∀ (x : BitVec 3) (k : Kind), selectKind x = some k ↔ HighestPriority k x) ∧
  (∀ (x : BitVec 3) (k : Kind), selectKind x = some k → x &&& -x = kindBit (kindCode k)) ∧
  selectKind 0b000 = none ∧ selectKind 0b001 = some .wc ∧ selectKind 0b010 = some .rk ∧
  selectKind 0b011 = some .wc ∧ selectKind 0b100 = some .ws ∧ selectKind 0b101 = some .wc ∧
  selectKind 0b110 = some .rk ∧ selectKind 0b111 = some .wc

/-- 40_arbiter.md R73: REQUEST's word; it marks the kinds, less the active one, and starts the
highest-priority requested kind at once if the block is idle, the rest as each before them finishes. -/
def Obligations.RequestMarksAndStarts : Prop :=
  ∀ (mask : BitVec 3) (s : State),
    decode (.cmd32 (0x2#4 ++ 0#25 ++ mask)) = .instr (.request mask) ∧
    (∀ code st c, s.act = .busy code st c →
      exec (.request mask) s =
        .next { s with req := s.req ||| (mask &&& ~~~(kindBit code)), hpc := s.hpc + 1 }) ∧
    (s.act = .idle → s.req ||| mask = 0 →
      exec (.request mask) s = .next { s with hpc := s.hpc + 1 }) ∧
    (∀ k, s.act = .idle → HighestPriority k (s.req ||| mask) →
      let t : State :=
        { s with
          req := (s.req ||| mask) &&& ~~~(kindBit (kindCode k))
          act := .busy (kindCode k) 0 0
          cs := true
          xfer := .tx (openingByte k s.cfg)
          trace := s.trace ++ [.select, .tx (openingByte k s.cfg)]
          hpc := s.hpc + 1 }
      exec (.request mask) s = .next t ∧
      ∀ j, HighestPriority j t.req → (finish t).act = .busy (kindCode j) 0 0)

/-- 40_arbiter.md R74 (the spec's decision D4): a request for the active kind changes nothing. -/
def Obligations.ActiveKindIsDropped : Prop :=
  ∀ (s : State) (k : Kind) (st c : BitVec 5),
    s.act = .busy (kindCode k) st c →
    exec (.request (kindBit (kindCode k))) s = .next { s with hpc := s.hpc + 1 }

/-- 40_arbiter.md R75 (derived in the spec): a request repeated before its kinds have started changes
nothing more. -/
def Obligations.RequestsCoalesce : Prop :=
  ∀ (mask : BitVec 3) (s t : State),
    s.act ≠ .idle → exec (.request mask) s = .next t →
    exec (.request mask) t = .next { t with hpc := t.hpc + 1 }

/-- 90_conflicts.md C4 with 40_arbiter.md R77 (derived in the spec): three kinds requested together
while idle run in the order WriteConfig, ReadKeys, WriteSegments, each started as the one before
finishes. -/
def Obligations.ThreeKindsRunInPriorityOrder : Prop :=
  ∀ s : State,
    s.act = .idle → s.req = 0 →
    ∃ t : State,
      exec (.request 0b111) s = .next t ∧
      t.act = .busy (kindCode .wc) 0 0 ∧ t.req = 0b110#3 ∧
      (finish t).act = .busy (kindCode .rk) 0 0 ∧ (finish t).req = 0b100#3 ∧
      (finish (finish t)).act = .busy (kindCode .ws) 0 0 ∧ (finish (finish t)).req = 0b000#3 ∧
      (finish (finish (finish t))).act = .idle ∧
      (finish (finish (finish t))).trace =
        s.trace ++
          [.select, .tx (openingByte .wc s.cfg), .deselect, .select, .tx 0x42, .deselect,
           .select, .tx 0x40, .deselect]

/-! ### The host commands -/

/-- 43_keys_config.md R100: SET_ENABLED's word; it writes `CFG.enabled` and requests a WriteConfig:
idle, it starts and sends the new value; WriteConfig in flight, it is dropped; another kind in flight,
it queues and starts next, with `CFG` as it is then. -/
def Obligations.SetEnabledResult : Prop :=
  ∀ (en : Bool) (s : State),
    decode (.cmd32 (0x4#4 ++ 0#27 ++ BitVec.ofBool en)) = .instr (.setEnabled en) ∧
    (s.act = .idle →
      exec (.setEnabled en) s =
        .next { s with
          cfg := ⟨en, s.cfg.brightness⟩
          req := s.req &&& 0b110
          act := .busy 0 0 0
          cs := true
          xfer := .tx (displayControlByte en s.cfg.brightness)
          trace := s.trace ++ [.select, .tx (displayControlByte en s.cfg.brightness)]
          hpc := s.hpc + 1 }) ∧
    (∀ st c, s.act = .busy (kindCode .wc) st c →
      exec (.setEnabled en) s =
        .next { s with cfg := ⟨en, s.cfg.brightness⟩, hpc := s.hpc + 1 }) ∧
    (∀ code st c, s.act = .busy code st c → code ≠ kindCode .wc →
      let t : State := { s with cfg := ⟨en, s.cfg.brightness⟩, req := s.req ||| 0b001, hpc := s.hpc + 1 }
      exec (.setEnabled en) s = .next t ∧
      (finish t).act = .busy 0 0 0 ∧ (finish t).req = t.req &&& 0b110 ∧
      (finish t).xfer = .tx (displayControlByte en s.cfg.brightness))

/-- 43_keys_config.md R101: SET_BRIGHTNESS's word, and the same three cases. -/
def Obligations.SetBrightnessResult : Prop :=
  ∀ (level : BitVec 3) (s : State),
    decode (.cmd32 (0x5#4 ++ 0#25 ++ level)) = .instr (.setBrightness level) ∧
    (s.act = .idle →
      exec (.setBrightness level) s =
        .next { s with
          cfg := ⟨s.cfg.enabled, level⟩
          req := s.req &&& 0b110
          act := .busy 0 0 0
          cs := true
          xfer := .tx (displayControlByte s.cfg.enabled level)
          trace := s.trace ++ [.select, .tx (displayControlByte s.cfg.enabled level)]
          hpc := s.hpc + 1 }) ∧
    (∀ st c, s.act = .busy (kindCode .wc) st c →
      exec (.setBrightness level) s =
        .next { s with cfg := ⟨s.cfg.enabled, level⟩, hpc := s.hpc + 1 }) ∧
    (∀ code st c, s.act = .busy code st c → code ≠ kindCode .wc →
      let t : State := { s with cfg := ⟨s.cfg.enabled, level⟩, req := s.req ||| 0b001, hpc := s.hpc + 1 }
      exec (.setBrightness level) s = .next t ∧
      (finish t).act = .busy 0 0 0 ∧ (finish t).req = t.req &&& 0b110 ∧
      (finish t).xfer = .tx (displayControlByte s.cfg.enabled level))

/-- 42_framebuffer.md R94: WRITE_DIGIT's word; it sets column `pos` to the glyph of a value 0..15 and to
blank for any other value, and leaves every other column and all other state alone; a position above 9
changes no state but `HPC`. -/
def Obligations.WriteDigitRendersColumn : Prop :=
  ∀ (pos : BitVec 8) (val : BitVec 16) (s : State),
    (∀ low : BitVec 8,
      decode (.cmd32 (0x3#4 ++ 0#12 ++ pos ++ low)) = .instr (.writeDigit pos (low.signExtend 16))) ∧
    (9 < pos.toNat → exec (.writeDigit pos val) s = .next { s with hpc := s.hpc + 1 }) ∧
    (pos.toNat ≤ 9 →
      ∃ fb : Framebuffer,
        exec (.writeDigit pos val) s = .next { s with fb := fb, hpc := s.hpc + 1 } ∧
        decodeDigit fb pos.toNat =
          (if 0 ≤ val.toInt ∧ val.toInt ≤ 15 then glyphOf s.params.glyph val.toNat else 0x00#8) ∧
        (∀ d, d ≠ pos.toNat → decodeDigit fb d = decodeDigit s.fb d) ∧
        (∀ i, i % 2 ≠ pos.toNat / 8 → fbByte fb i = fbByte s.fb i))

/-- 42_framebuffer.md R96 (derived in the spec): the transpose law between columns and payload bytes. -/
def Obligations.TransposeLaw : Prop :=
  ∀ (fb : Framebuffer) (s : Fin 8) (d : Nat),
    d < 16 →
    ∃ b : Byte,
      fbByte fb (2 * s.val + d / 8) = some b ∧ b.getLsbD (d % 8) = (decodeDigit fb d).getLsbD s.val

/-- 43_keys_config.md R97: GET_KEYS's word, and its effect with an atomic snapshot read; from reset it
reads the reset value. -/
def Obligations.GetKeysReadsSnapshot : Prop :=
  decode (.cmd32 0x60000000#32) = .instr .getKeys ∧
  (∃ t, exec .getKeys State.reset = .next t ∧ t.rdata = 0x00000000#32) ∧
  ∀ s : State,
    s.params.snapshotReadAtomic = true →
    exec .getKeys s = .next { s with rdata := s.keys, hpc := s.hpc + 1 }

/-- 43_keys_config.md R98: one step GK_i of a split GET_KEYS copies byte `i`, and `HPC` advances after
GK3 only. The position `gkPos` is the model's (assumption 6). -/
def Obligations.GetKeysSplitStep : Prop :=
  ∀ s : State,
    s.params.snapshotReadAtomic = false →
    ∃ v : BitVec 32,
      exec .getKeys s =
        .next { s with
          rdata := v
          gkPos := s.gkPos + 1
          hpc := if s.gkPos = 3 then s.hpc + 1 else s.hpc } ∧
      byteAt v s.gkPos.toNat = byteAt s.keys s.gkPos.toNat ∧
      ∀ j, j < 4 → j ≠ s.gkPos.toNat → byteAt v j = byteAt s.rdata j

/-- 43_keys_config.md R98: a commit of `new` between GK1 and GK2 makes `RDATA` mix two snapshots; with
`new` the old value there is no mix. Which halves are old and new rests on the order of the four reads,
lowest byte first: the spec's own choice, of which R98 says that a claim must not depend on it, so
nothing said of the chip may rest on this statement (assumption 6). -/
def Obligations.GetKeysSplitMix : Prop :=
  ∀ (s : State) (new : BitVec 32),
    s.params.snapshotReadAtomic = false → s.gkPos = 0 →
    ∃ t1 t2 t3 t4 : State,
      exec .getKeys s = .next t1 ∧ exec .getKeys t1 = .next t2 ∧
      exec .getKeys { t2 with keys := new } = .next t3 ∧ exec .getKeys t3 = .next t4 ∧
      t4.rdata = field new 16 16 ++ field s.keys 0 16 ∧
      t4.gkPos = 0 ∧ t4.hpc = s.hpc + 1 ∧ t3.hpc = s.hpc

/-- 44_init_refresh.md R102: INIT's word; it sets `CFG` to on at `P_INIT_BRIGHTNESS`, clears the
framebuffer, sets both intervals and the (free) time origin, and requests a WriteConfig exactly if
`P_INIT_REQUESTS_CONFIG`; every payload byte read after it is 0, and an interval of 0 disables its
trigger. -/
def Obligations.InitResult : Prop :=
  ∀ (r p : BitVec 14) (s : State),
    ∃ now : Nat,
      let on : DisplayConfig := ⟨true, s.params.initBrightness⟩
      let t : State :=
        { s with
          cfg := on
          fb := ⟨0, 0, 0, 0, 0, 0, 0, 0⟩
          rescanMs := r
          repaintMs := p
          t0 := now
          hpc := s.hpc + 1 }
      decode (.cmd32 (0x1#4 ++ r ++ p)) = .instr (.init r p) ∧
      (∀ i, i < 16 → fbByte t.fb i = some 0x00#8) ∧
      (r = 0 → isEnabled .rescan t = false) ∧ (p = 0 → isEnabled .repaint t = false) ∧
      (s.params.initRequestsConfig = false → exec (.init r p) s = .next t) ∧
      (s.params.initRequestsConfig = true → s.act = .idle →
        exec (.init r p) s =
          .next { t with
            req := s.req &&& 0b110
            act := .busy 0 0 0
            cs := true
            xfer := .tx (displayControlByte true s.params.initBrightness)
            trace := s.trace ++ [.select, .tx (displayControlByte true s.params.initBrightness)] }) ∧
      (∀ code st c, s.params.initRequestsConfig = true → s.act = .busy code st c →
        exec (.init r p) s =
          .next { t with req := if code = kindCode .wc then s.req else s.req ||| 0b001 })

/-- The frame of every host command: what each leaves unchanged. 10_state.md R31 (the host's columns) on
`KEYS`, `KSTAGE` and `EVT`; R21 with 41_transfer.md R79 on `RXMODE`, which `Start` does not write; R30 on
`FAULT` and `REFUSED`; R15, R16, R18, R19 and R28 on `CFG`, `FB`, `RDATA`, the intervals and `HPC`. -/
def Obligations.HostCommandFrame : Prop :=
  ∀ (w : Word) (i : Instr) (s t : State),
    decode (.cmd32 w) = .instr i → exec i s = .next t →
    (t.keys = s.keys ∧ t.kstage = s.kstage ∧ t.evt = s.evt ∧ t.rxmode = s.rxmode ∧
      t.fault = s.fault ∧ t.refused = s.refused ∧ t.program = s.program ∧ t.agenda = s.agenda ∧
      t.tick = s.tick ∧ t.params = s.params) ∧
    ((∀ r p, i ≠ .init r p) → (∀ pos val, i = .writeDigit pos val → 9 < pos.toNat) →
      t.fb = s.fb ∧ ∀ a, fbByte t.fb a = fbByte s.fb a) ∧
    (i ≠ .getKeys → t.rdata = s.rdata ∧ t.gkPos = s.gkPos ∧ t.hpc = s.hpc + 1) ∧
    ((∀ r p, i ≠ .init r p) → t.rescanMs = s.rescanMs ∧ t.repaintMs = s.repaintMs ∧ t.t0 = s.t0) ∧
    ((∀ r p, i ≠ .init r p) → (∀ en, i ≠ .setEnabled en) → (∀ l, i ≠ .setBrightness l) → t.cfg = s.cfg) ∧
    ((∃ pos val, i = .writeDigit pos val) ∨ i = .getKeys →
      t.req = s.req ∧ t.act = s.act ∧ t.cs = s.cs ∧ t.xfer = s.xfer ∧ t.trace = s.trace)

/-! ### The wire bytes -/

/-- 41_transfer.md R80 on an opcode byte (assumption 12): any of the four wire instructions whose byte
is on the bus is sent: the event with no byte is raised and nothing else changes. -/
def Obligations.WireByteOnBusIsSent : Prop :=
  ∀ (i : Instr) (b : Byte) (s : State),
    encode i = .wire8 b → s.xfer = .tx b →
    exec i s = .next { s with evt := .done none, xfer := .none }

/-- 41_transfer.md R83 with R89, as the handler phase of the wire byte's row (assumption 12): the step
of the display-control byte finishes the WriteConfig and chains the highest-priority requested kind. -/
def Obligations.DisplayControlStepFinishes : Prop :=
  ∀ (enabled : Bool) (brightness : BitVec 3) (s : State) (r : Option Byte) (cursor : BitVec 5),
    s.act = .busy (kindCode .wc) 0 cursor → s.evt = .done r → s.xfer = .none →
    (s.req = 0 →
      exec (.wireDisplayControl enabled brightness) s =
        .next { s with
          evt := .none
          cs := false
          act := .idle
          trace := s.trace ++ [.deselect] }) ∧
    (∀ k, HighestPriority k s.req →
      exec (.wireDisplayControl enabled brightness) s =
        .next { s with
          evt := .none
          req := s.req &&& ~~~(kindBit (kindCode k))
          cs := true
          act := .busy (kindCode k) 0 0
          xfer := .tx (openingByte k s.cfg)
          trace := s.trace ++ [.deselect, .select, .tx (openingByte k s.cfg)] })

/-- 41_transfer.md R84, as the handler phase of the wire byte's row (assumption 12): the step of the
read-data byte switches to receive mode and starts receiving key
byte 0. -/
def Obligations.ReadDataStepSwitchesToReceive : Prop :=
  ∀ (s : State) (r : Option Byte) (cursor : BitVec 5),
    s.act = .busy (kindCode .rk) 0 cursor → s.evt = .done r → s.xfer = .none →
    exec .wireReadData s =
      .next { s with
        evt := .none
        rxmode := true
        xfer := .rx
        act := .busy (kindCode .rk) 1 0
        trace := s.trace ++ [.rxOn, .rxStart] }

/-- 41_transfer.md R87 at step 0, as the handler phase of the wire byte's row (assumption 12): the step
of the write-data byte sends payload byte 0, the low byte of plane a as it is now. -/
def Obligations.WriteDataStepSendsFirstByte : Prop :=
  ∀ (s : State) (r : Option Byte),
    s.act = .busy (kindCode .ws) 0 0 → s.evt = .done r → s.xfer = .none →
    exec .wireWriteData s =
      .next { s with
        evt := .none
        xfer := .tx (field s.fb.a 0 8)
        act := .busy (kindCode .ws) 1 1
        trace := s.trace ++ [.tx (field s.fb.a 0 8)] }

/-! ### The transport's and the handler's steps -/

/-- 41_transfer.md R80: the transport's step, for every drawn byte `r`; with nothing in flight it is not
enabled. -/
def Obligations.TransportCompletes : Prop :=
  ∀ (s : State) (r : Byte),
    TurnIs (.transport r) s →
    (∀ b, s.xfer = .tx b →
      step s =
        .next { s with
          evt := .done none
          xfer := .none
          agenda := s.agenda.tail
          tick := s.tick + 1 }) ∧
    (s.xfer = .rx →
      step s =
        .next { s with
          evt := .done (some r)
          xfer := .none
          trace := s.trace ++ [.rx r]
          agenda := s.agenda.tail
          tick := s.tick + 1 }) ∧
    (s.xfer = .none ↔ isEnabled (.transport r) s = false)

/-- 41_transfer.md R84: ReadKeys step 0 switches to receive mode and starts receiving key byte 0. -/
def Obligations.HandlerStartsReceiving : Prop :=
  ∀ (s : State) (r : Option Byte) (c : BitVec 5),
    HandlerTakes r s → s.act = .busy (kindCode .rk) 0 c →
    step s =
      .next { s with
        evt := .none
        rxmode := true
        xfer := .rx
        act := .busy (kindCode .rk) 1 0
        trace := s.trace ++ [.rxOn, .rxStart]
        agenda := s.agenda.tail
        tick := s.tick + 1 }

/-- 41_transfer.md R85: ReadKeys steps 1 to 3 stage key byte `c = s - 1` and start receiving the next;
an event with no byte faults. -/
def Obligations.HandlerStagesKeyByte : Prop :=
  ∀ (s : State) (r : Option Byte) (st c : BitVec 5),
    HandlerTakes r s → s.act = .busy (kindCode .rk) st c → 1 ≤ st.toNat → st.toNat ≤ 3 →
    c.toNat = st.toNat - 1 →
    (r = none →
      step s =
        .next { s with
          evt := .none
          fault := some .rxByteMissing
          agenda := s.agenda.tail
          tick := s.tick + 1 }) ∧
    (∀ b, r = some b →
      ∃ stage : BitVec 24,
        step s =
          .next { s with
            evt := .none
            kstage := stage
            xfer := .rx
            act := .busy (kindCode .rk) (st + 1) (c + 1)
            trace := s.trace ++ [.rxStart]
            agenda := s.agenda.tail
            tick := s.tick + 1 } ∧
        byteAt stage c.toNat = b ∧
        ∀ j, j < 3 → j ≠ c.toNat → byteAt stage j = byteAt s.kstage j)

/-- 41_transfer.md R86 with R89: ReadKeys step 4 commits the four bytes at once, restores transmit mode
and finishes; an event with no byte faults and leaves `KEYS` unchanged. -/
def Obligations.HandlerCommitsSnapshot : Prop :=
  ∀ (s : State) (r : Option Byte) (c : BitVec 5),
    HandlerTakes r s → s.act = .busy (kindCode .rk) 4 c →
    (r = none →
      step s =
        .next { s with
          evt := .none
          fault := some .rxByteMissing
          agenda := s.agenda.tail
          tick := s.tick + 1 }) ∧
    (∀ b, r = some b → s.req = 0 →
      step s =
        .next { s with
          evt := .none
          keys := b ++ field s.kstage 16 8 ++ field s.kstage 8 8 ++ field s.kstage 0 8
          rxmode := false
          cs := false
          act := .idle
          trace := s.trace ++ [.rxOff, .deselect]
          agenda := s.agenda.tail
          tick := s.tick + 1 }) ∧
    (∀ b k, r = some b → HighestPriority k s.req →
      step s =
        .next { s with
          evt := .none
          keys := b ++ field s.kstage 16 8 ++ field s.kstage 8 8 ++ field s.kstage 0 8
          rxmode := false
          req := s.req &&& ~~~(kindBit (kindCode k))
          cs := true
          act := .busy (kindCode k) 0 0
          xfer := .tx (openingByte k s.cfg)
          trace := s.trace ++ [.rxOff, .deselect, .select, .tx (openingByte k s.cfg)]
          agenda := s.agenda.tail
          tick := s.tick + 1 })

/-- 41_transfer.md R87: WriteSegments steps 0 to 15 send payload byte `c = s` of the framebuffer as it
is at that step. -/
def Obligations.HandlerSendsPayloadByte : Prop :=
  ∀ (s : State) (r : Option Byte) (st : BitVec 5),
    HandlerTakes r s → s.act = .busy (kindCode .ws) st st → st.toNat ≤ 15 →
    ∃ b : Byte,
      fbByte s.fb st.toNat = some b ∧
      step s =
        .next { s with
          evt := .none
          xfer := .tx b
          act := .busy (kindCode .ws) (st + 1) (st + 1)
          trace := s.trace ++ [.tx b]
          agenda := s.agenda.tail
          tick := s.tick + 1 }

/-- 41_transfer.md R83, R88 and R89: WriteConfig step 0 and WriteSegments step 16 finish: deselect, then
the highest-priority requested kind starts in the same step. -/
def Obligations.HandlerFinishesCommand : Prop :=
  ∀ (s : State) (r : Option Byte) (c : BitVec 5),
    HandlerTakes r s →
    (s.act = .busy (kindCode .wc) 0 c ∨ s.act = .busy (kindCode .ws) 16 c) →
    (s.req = 0 →
      step s =
        .next { s with
          evt := .none
          cs := false
          act := .idle
          trace := s.trace ++ [.deselect]
          agenda := s.agenda.tail
          tick := s.tick + 1 }) ∧
    (∀ k, HighestPriority k s.req →
      step s =
        .next { s with
          evt := .none
          req := s.req &&& ~~~(kindBit (kindCode k))
          cs := true
          act := .busy (kindCode k) 0 0
          xfer := .tx (openingByte k s.cfg)
          trace := s.trace ++ [.deselect, .select, .tx (openingByte k s.cfg)]
          agenda := s.agenda.tail
          tick := s.tick + 1 })

/-- 41_transfer.md R82 and 60_exceptions.md R107, R110: the handler's checks, in their order; the event
is consumed and `FAULT` is set, and nothing else changes. -/
def Obligations.HandlerFaultChecks : Prop :=
  ∀ (s : State) (r : Option Byte),
    HandlerTakes r s →
    let faulted : FaultReason → State := fun reason =>
      { s with
        evt := .none
        fault := some reason
        agenda := s.agenda.tail
        tick := s.tick + 1 }
    (s.act = .idle → step s = .next (faulted .eventWhileIdle)) ∧
    (∀ st c, s.act = .busy 3 st c → step s = .next (faulted .badKind)) ∧
    (∀ k st c, s.act = .busy (kindCode k) st c → totalSteps k ≤ st.toNat →
      step s = .next (faulted .stepOutOfRange)) ∧
    (∀ st c, s.act = .busy (kindCode .rk) st c → 1 ≤ st.toNat → st.toNat ≤ 4 → r = none →
      step s = .next (faulted .rxByteMissing))

/-- 44_init_refresh.md R103 and R104: a trigger's firing is the REQUEST of its kind and nothing more; it
is enabled iff its interval is not 0 and there is no fault. -/
def Obligations.TriggersRequest : Prop :=
  ∀ s : State,
    (isEnabled .rescan s = true ↔ s.rescanMs ≠ 0 ∧ s.fault = none) ∧
    (isEnabled .repaint s = true ↔ s.repaintMs ≠ 0 ∧ s.fault = none) ∧
    (TurnIs .rescan s → s.rescanMs ≠ 0 →
      ∃ t, exec (.request 0b010) (consumeTurn s) = .next t ∧ step s = .next { t with hpc := s.hpc }) ∧
    (TurnIs .repaint s → s.repaintMs ≠ 0 →
      ∃ t, exec (.request 0b100) (consumeTurn s) = .next t ∧ step s = .next { t with hpc := s.hpc })

/-! ### Invariants of every step -/

/-- 10_state.md R32 to R37 (derived in the spec): every step keeps the invariants, together with the legal
values of `ACT` (R14), the converse of R36 (41_transfer.md R84, R85) and the absence of a fault. -/
def Obligations.StepKeepsInvariants : Prop :=
  ∀ s t : State, StepInvariant s → step s = .next t → StepInvariant t

/-- 60_exceptions.md R107 ("None is reachable from reset"): from a state that meets the invariants, with
what `StepInvariant` adds to them and with `HPC` in range, a step never faults: it answers a next
state, or the host has been refused and no agent has a step (assumptions 8 to 11). -/
def Obligations.InvariantsExcludeFaults : Prop :=
  ∀ s : State,
    StepInvariant s → HpcInRange s →
    (∃ t, step s = .next t ∧ t.fault = none) ∨ (step s = .refused .reservedWord ∧ s.refused = true)

/-- 41_transfer.md R90 (derived in the spec): every step keeps the bus trace a run of whole command
sequences, framed by select and deselect, followed by the part sent of the active one. -/
def Obligations.StepKeepsFraming : Prop :=
  ∀ s t : State, StepInvariant s → Framed s → step s = .next t → Framed t

/-- 20_memory.md R41 (derived in the spec): digit slots 10..15 stay dark. -/
def Obligations.StepKeepsUnusedSlotsDark : Prop :=
  ∀ s t : State, UnusedSlotsDark s.fb → step s = .next t → UnusedSlotsDark t.fb

/-- 20_memory.md R41: with those slots dark, bits 2..7 of every odd payload byte are 0. -/
def Obligations.UnusedSlotsArePayloadZeros : Prop :=
  ∀ (fb : Framebuffer) (i : Nat) (b : Byte),
    UnusedSlotsDark fb → i % 2 = 1 → fbByte fb i = some b → b &&& 0xFC#8 = 0

/-- 42_framebuffer.md R94 (d) with the constraint on `P_GLYPH` (00_scope.md R6): once dark, the decimal
point plane stays dark. -/
def Obligations.DecimalPointStaysDark : Prop :=
  ∀ s t : State,
    glyphTableOk s.params.glyph = true → s.fb.dp = 0 → step s = .next t → t.fb.dp = 0

/-- 10_state.md R17 and 20_memory.md R51: `KEYS` changes only at the final step of a ReadKeys transfer,
all 32 bits at once. -/
def Obligations.SnapshotChangesOnlyAtLastKeyByte : Prop :=
  ∀ s t : State,
    step s = .next t → t.keys ≠ s.keys →
    nextTurn s = .handler ∧
    ∃ (c : BitVec 5) (b : Byte),
      s.act = .busy (kindCode .rk) 4 c ∧ s.evt = .done (some b) ∧ t.keys = b ++ s.kstage

/-- 10_state.md R31, with R27 and R28, and 44_init_refresh.md R102, 43_keys_config.md R98: only the host's
turn writes the state the background context owns, and its position. -/
def Obligations.OnlyHostTurnWritesHostState : Prop :=
  ∀ s t : State,
    step s = .next t → nextTurn s ≠ .host →
    t.cfg = s.cfg ∧ t.fb = s.fb ∧ t.rdata = s.rdata ∧ t.rescanMs = s.rescanMs ∧
    t.repaintMs = s.repaintMs ∧ t.t0 = s.t0 ∧ t.gkPos = s.gkPos ∧ t.hpc = s.hpc ∧
    t.refused = s.refused

/-- 10_state.md R31 on `KEYS` and `KSTAGE`; R21 with 41_transfer.md R79 and R84 to R86 on `RXMODE`, which
`Start` does not write; 60_exceptions.md R107 on `FAULT`: only the handler's turn writes them. -/
def Obligations.OnlyHandlerTurnWritesHandlerState : Prop :=
  ∀ s t : State,
    step s = .next t → nextTurn s ≠ .handler →
    t.keys = s.keys ∧ t.kstage = s.kstage ∧ t.rxmode = s.rxmode ∧ t.fault = s.fault

/-- 10_state.md R31: the transport writes `XFER`, `EVT` and `TRACE` only. -/
def Obligations.TransportTurnFrame : Prop :=
  ∀ (s t : State) (r : Byte),
    nextTurn s = .transport r → anyEnabled s = true → step s = .next t →
    t = { s with
      xfer := t.xfer
      evt := t.evt
      trace := t.trace
      agenda := s.agenda.tail
      tick := s.tick + 1 }

/-- 20_memory.md R52 and 00_scope.md R6: no step changes the host's program or a parameter. -/
def Obligations.StepKeepsProgramAndParams : Prop :=
  ∀ s t : State, step s = .next t → t.program = s.program ∧ t.params = s.params

/-- 10_state.md R27 and 60_exceptions.md R108: `REFUSED` is never cleared, and the host makes no
progress after it. -/
def Obligations.RefusalIsPermanent : Prop :=
  ∀ s t : State,
    s.refused = true → step s = .next t →
    t.refused = true ∧ t.hpc = s.hpc ∧ t.cfg = s.cfg ∧ t.fb = s.fb ∧ t.rdata = s.rdata

/-- 10_state.md R28 and 43_keys_config.md R98: `HPC` stays in the program, and a split GET_KEYS under
way stays the command at `HPC`. -/
def Obligations.StepKeepsHostPosition : Prop :=
  ∀ s t : State,
    HpcInRange s → SplitReadHeld s → step s = .next t → HpcInRange t ∧ SplitReadHeld t

/-! ### Whole transfers (41_transfer.md R90, R91, derived in the spec) -/

/-- A WriteConfig takes one event. -/
def Obligations.WriteConfigRunsOneEvent : Prop :=
  ∀ (s : State) (b : Byte) (rest : List Turn),
    s.fault = none → s.req = 0 → s.act = .busy (kindCode .wc) 0 0 → s.xfer = .tx b →
    s.agenda = byteSteps 1 ++ rest →
    core.run 2 s =
      .next { s with
        act := .idle
        cs := false
        xfer := .none
        evt := .none
        trace := s.trace ++ [.deselect]
        agenda := rest
        tick := s.tick + 2 }

/-- A ReadKeys takes five events: with key bytes `k0`..`k3` drawn it leaves them in `KEYS`, byte `i` in
bits 8i+7..8i (20_memory.md R42), and the transport in transmit mode. -/
def Obligations.ReadKeysRunsFiveEvents : Prop :=
  ∀ (s : State) (b r k0 k1 k2 k3 : Byte) (rest : List Turn),
    s.fault = none → s.req = 0 → s.act = .busy (kindCode .rk) 0 0 → s.xfer = .tx b →
    s.agenda =
      [.transport r, .handler, .transport k0, .handler, .transport k1, .handler,
        .transport k2, .handler, .transport k3, .handler] ++ rest →
    core.run 10 s =
      .next { s with
        act := .idle
        cs := false
        rxmode := false
        xfer := .none
        evt := .none
        kstage := k2 ++ k1 ++ k0
        keys := k3 ++ k2 ++ k1 ++ k0
        trace := s.trace ++
          [.rxOn, .rxStart, .rx k0, .rxStart, .rx k1, .rxStart, .rx k2, .rxStart, .rx k3, .rxOff,
            .deselect]
        agenda := rest
        tick := s.tick + 10 }

/-- A WriteSegments takes seventeen events and sends the sixteen payload bytes of the framebuffer, in
ascending order of their addresses. -/
def Obligations.WriteSegmentsRunsWholeFrame : Prop :=
  ∀ (s : State) (b : Byte) (rest : List Turn),
    s.fault = none → s.req = 0 → s.act = .busy (kindCode .ws) 0 0 → s.xfer = .tx b →
    s.agenda = byteSteps 17 ++ rest →
    ∃ payload : List Byte,
      memRead s.fb 0 16 = some payload ∧
      core.run 34 s =
        .next { s with
          act := .idle
          cs := false
          xfer := .none
          evt := .none
          trace := s.trace ++ payload.map .tx ++ [.deselect]
          agenda := rest
          tick := s.tick + 34 }

/-! ### The timing contract (44_init_refresh.md R105, the spec's decision D16) -/

/-- In a window of `w` milliseconds after INIT the rescan trigger fires `w / R` times, and the first
repaint falls half a rescan interval after the first rescan. -/
def Obligations.CadenceCount : Prop :=
  ∀ t0 r w : Nat,
    0 < r →
    firingsIn (rescanTime t0 r) t0 (t0 + w) w = w / r ∧
    ∀ p first, 0 < p → rescanTime t0 r 1 = some first →
      repaintTime t0 r p 0 = some (first + r / 2)

/-! ### Fairness -/

/-- 60_exceptions.md R121 with 41_transfer.md R80 (the spec's decision D30). Along every run under a schedule
that is fair to the transport and the handler, from every state that meets `StepInvariant`: a command
at step `st` is finished, with one `Deselect`, after exactly `Total(k) - st` more events (all `Total(k)`
from its start); and a kind in `REQ` is started, if from some turn on no kind of higher priority is
requested again. Schedules: assumption 2. -/
def Obligations.FairRunsFinishAndStartCommands : Prop :=
  ∀ (sched : Nat → Turn) (s : State),
    StepInvariant s → FairSchedule sched s →
    (∀ (n : Nat) (k : Kind) (st c : BitVec 5),
      (runAt sched s n).act = .busy (kindCode k) st c →
      ∃ d : Nat,
        (∀ i, i ≤ d →
          (∃ st' c', (runAt sched s (n + i)).act = .busy (kindCode k) st' c') ∧
          deselects (runAt sched s (n + i)) = deselects (runAt sched s n)) ∧
        deselects (runAt sched s (n + d + 1)) = deselects (runAt sched s n) + 1 ∧
        eventsHandled sched s n (d + 1) = totalSteps k - st.toNat) ∧
    (∀ (n later : Nat) (k : Kind),
      (runAt sched s n).req.getLsbD (kindCode k).toNat = true →
      HigherNotRerequested k sched s later →
      ∃ m, n < m ∧ (runAt sched s m).act = .busy (kindCode k) 0 0)
end

