-- ==== Sys2Proof/Laws/Encoding.lean ====
section
/-! SUPPORT. Laws of bit fields: taking fields of an append, and appending adjacent fields. -/

namespace Sys2Proof

@[simp] theorem field_self {n : Nat} (a : BitVec n) : field a 0 n = a := by
  unfold field
  apply BitVec.eq_of_getLsbD_eq
  intro i hi
  simp [hi]

/-- A field within the low part of an append. -/
theorem field_append_low {m n : Nat} (a : BitVec m) (b : BitVec n) (lo k : Nat) (h : lo + k ≤ n) :
    field (a ++ b) lo k = field b lo k := by
  unfold field
  apply BitVec.eq_of_getLsbD_eq
  intro i hi
  have : lo + i < n := by omega
  simp [BitVec.getLsbD_append, this]

/-- A field within the high part of an append. -/
theorem field_append_high {m n : Nat} (a : BitVec m) (b : BitVec n) (lo k : Nat) (h : n ≤ lo) :
    field (a ++ b) lo k = field a (lo - n) k := by
  unfold field
  apply BitVec.eq_of_getLsbD_eq
  intro i hi
  have h1 : ¬ lo + i < n := by omega
  have h2 : lo + i - n = lo - n + i := by omega
  simp [BitVec.getLsbD_append, h1, h2]

/-- Two adjacent fields are one. -/
theorem field_adjacent {w : Nat} (v : BitVec w) (lo m n : Nat) :
    field v (lo + n) m ++ field v lo n = field v lo (m + n) := by
  unfold field
  apply BitVec.eq_of_getLsbD_eq
  intro i hi
  simp only [BitVec.getLsbD_append, BitVec.getLsbD_extractLsb', hi]
  by_cases h1 : i < n
  · simp [h1]
  · have h2 : i - n < m := by omega
    have h3 : lo + n + (i - n) = lo + i := by omega
    simp [h1, h2, h3]

/-- A sign-extended byte is a value WRITE_DIGIT can carry. -/
theorem digitValueFits_signExtend : ∀ b : Byte, digitValueFits (b.signExtend 16) = true := by decide

/-- A value WRITE_DIGIT can carry is its low byte, sign-extended. -/
theorem signExtend_low_of_fits (v : BitVec 16) (h : digitValueFits v = true) :
    (v.setWidth 8).signExtend 16 = v := by
  obtain ⟨h1, h2⟩ := decide_eq_true_iff.1 h
  have e : v = BitVec.ofInt 16 v.toInt := by simp
  generalize v.toInt = z at *
  subst e
  interval_cases z <;> decide

end Sys2Proof
end

