-- ==== Sys2Proof/Laws/Framebuffer.lean ====
section
/-! SUPPORT. Laws of the framebuffer's accessors: planes, columns, payload bytes and decoded digits. -/

namespace Sys2Proof.Machine

@[simp] theorem plane_fromPlanes (p : Fin 8 → BitVec 16) (s : Fin 8) : plane (fromPlanes p) s = p s := by
  fin_cases s <;> rfl

theorem framebuffer_ext {x y : Framebuffer} (h : ∀ s, plane x s = plane y s) : x = y := by
  cases x; cases y
  have h0 := h 0; have h1 := h 1; have h2 := h 2; have h3 := h 3
  have h4 := h 4; have h5 := h 5; have h6 := h 6; have h7 := h 7
  simp_all [plane]

theorem getLsbD_setBit (v : BitVec 16) (d e : Nat) (on : Bool) (he : e < 16) :
    (setBit v d on).getLsbD e = if e = d then on else v.getLsbD e := by
  have one : ∀ k, (1#16).getLsbD k = decide (k = 0) := by
    intro k; simp [BitVec.getLsbD_one]
  unfold setBit
  split <;> rename_i h
  · simp only [BitVec.getLsbD_or, BitVec.getLsbD_shiftLeft, one, he, decide_true, Bool.true_and]
    by_cases hd : e = d
    · subst hd; simp [h]
    · by_cases hl : e < d
      · simp [hl, hd]
      · have : e - d ≠ 0 := by omega
        simp [hl, hd, this]
  · simp only [BitVec.getLsbD_and, BitVec.getLsbD_not, BitVec.getLsbD_shiftLeft, one, he, decide_true,
      Bool.true_and]
    by_cases hd : e = d
    · subst hd; simp [h]
    · by_cases hl : e < d
      · simp [hl, hd]
      · have : e - d ≠ 0 := by omega
        simp [hl, hd, this]

/-- A column write sets the column to the pattern and leaves every other slot alone. -/
theorem fbBit_writeColumn (fb : Framebuffer) (d e : Nat) (g : Byte) (s : Fin 8) (he : e < 16) :
    fbBit (writeColumn fb d g) s e = if e = d then g.getLsbD s else fbBit fb s e := by
  simp only [fbBit, writeColumn, plane_fromPlanes, getLsbD_setBit _ _ _ _ he]

theorem fbBit_out_of_range (fb : Framebuffer) (s : Fin 8) (d : Nat) (hd : 16 ≤ d) :
    fbBit fb s d = false := by
  simp [fbBit, BitVec.getLsbD_of_ge _ _ hd]

@[simp] theorem fbBit_clearedFb (s : Fin 8) (d : Nat) : fbBit clearedFb s d = false := by
  simp [fbBit, clearedFb]

/-- Eight bits gathered one by one. -/
theorem getLsbD_gathered :
    ∀ (b0 b1 b2 b3 b4 b5 b6 b7 : Bool) (s : Fin 8),
      ((0 : Byte) ||| (BitVec.ofBool b0).setWidth 8 <<< 0 ||| (BitVec.ofBool b1).setWidth 8 <<< 1 |||
        (BitVec.ofBool b2).setWidth 8 <<< 2 ||| (BitVec.ofBool b3).setWidth 8 <<< 3 |||
        (BitVec.ofBool b4).setWidth 8 <<< 4 ||| (BitVec.ofBool b5).setWidth 8 <<< 5 |||
        (BitVec.ofBool b6).setWidth 8 <<< 6 ||| (BitVec.ofBool b7).setWidth 8 <<< 7).getLsbD s =
      #v[b0, b1, b2, b3, b4, b5, b6, b7][s] := by
  decide

/-- Bit `s` of a decoded digit is plane `s` at that digit. -/
theorem getLsbD_decodeDigit (fb : Framebuffer) (d : Nat) (s : Fin 8) :
    (decodeDigit fb d).getLsbD s = fbBit fb s d := by
  refine (getLsbD_gathered (fbBit fb 0 d) (fbBit fb 1 d) (fbBit fb 2 d) (fbBit fb 3 d) (fbBit fb 4 d)
    (fbBit fb 5 d) (fbBit fb 6 d) (fbBit fb 7 d) s).trans ?_
  fin_cases s <;> rfl

/-- Writing a column and decoding it gives the pattern back. -/
theorem decodeDigit_writeColumn (fb : Framebuffer) (d : Nat) (g : Byte) (hd : d < 16) :
    decodeDigit (writeColumn fb d g) d = g := by
  apply BitVec.eq_of_getLsbD_eq
  intro i hi
  have := getLsbD_decodeDigit (writeColumn fb d g) d ⟨i, hi⟩
  simp only [fbBit_writeColumn _ _ _ _ _ hd, if_true] at this
  exact this

/-- Other columns decode as before. -/
theorem decodeDigit_writeColumn_other (fb : Framebuffer) (d e : Nat) (g : Byte) (he : e < 16) (h : e ≠ d) :
    decodeDigit (writeColumn fb d g) e = decodeDigit fb e := by
  apply BitVec.eq_of_getLsbD_eq
  intro i hi
  have h1 := getLsbD_decodeDigit (writeColumn fb d g) e ⟨i, hi⟩
  have h2 := getLsbD_decodeDigit fb e ⟨i, hi⟩
  simp only [fbBit_writeColumn _ _ _ _ _ he, h, if_false] at h1
  exact h1.trans h2.symm

/-- The payload space is the addresses 0..15. -/
theorem fbByte_isSome (fb : Framebuffer) (i : Nat) : (fbByte fb i).isSome = decide (i < 16) := by
  unfold fbByte
  split <;> rename_i h
  · have : i < 16 := by omega
    simp [this]
  · have : ¬ i < 16 := by omega
    simp [this]

/-- Payload byte `2s + h` is byte `h` of plane `s`. -/
theorem fbByte_plane (fb : Framebuffer) (s : Fin 8) (h : Nat) (hh : h < 2) :
    fbByte fb (2 * s.val + h) = some (byteAt (plane fb s) h) := by
  have h1 : (2 * s.val + h) / 2 = s.val := by omega
  have h2 : (2 * s.val + h) % 2 = h := by omega
  unfold fbByte
  simp [h1, h2]

/-- Byte `j` after byte `i` is set, for bytes within the word. -/
theorem byteAt_setByteAt {n : Nat} (v : BitVec n) (i j : Nat) (b : Byte) (hi : 8 * i + 8 ≤ n)
    (hj : 8 * j + 8 ≤ n) :
    byteAt (setByteAt v i b) j = if j = i then b else byteAt v j := by
  apply BitVec.eq_of_getLsbD_eq
  intro k hk
  have ones : ∀ m, m < 8 → (255#8).getLsbD m = true := by decide
  have none : ∀ m, 8 ≤ m → (255#8).getLsbD m = false := fun m hm => BitVec.getLsbD_of_ge _ _ hm
  have h1 : 8 * j + k < n := by omega
  simp only [byteAt, setByteAt, BitVec.getLsbD_extractLsb', hk, BitVec.getLsbD_or, BitVec.getLsbD_and,
    BitVec.getLsbD_not, BitVec.getLsbD_shiftLeft, BitVec.getLsbD_setWidth, h1, decide_true,
    Bool.true_and]
  by_cases hij : j = i
  · subst hij
    have h2 : 8 * j + k - 8 * j = k := by omega
    have h3 : ¬ 8 * j + k < 8 * j := by omega
    have h4 : k < n := by omega
    simp only [h2, h3, h4, ones k hk]
    simp
  · by_cases hlt : 8 * j + k < 8 * i
    · simp [hlt, hij, hk]
    · have h2 : 8 ≤ 8 * j + k - 8 * i := by omega
      have h3 : 8 * j + k - 8 * i < n := by omega
      have h4 : b.getLsbD (8 * j + k - 8 * i) = false := BitVec.getLsbD_of_ge _ _ h2
      simp [hlt, hij, h3, none _ h2, h4, hk]

/-- A payload byte written is read back, and every other payload byte is left alone. -/
theorem fbByte_setFbByte {fb fb' : Framebuffer} {i : Nat} {b : Byte} (h : setFbByte fb i b = some fb')
    (j : Nat) : fbByte fb' j = if j = i then some b else fbByte fb j := by
  unfold setFbByte at h
  split at h
  · cases h
    unfold fbByte
    by_cases hj : j / 2 < 8
    · simp only [dif_pos hj, plane_fromPlanes]
      by_cases hp : j / 2 = i / 2
      · rw [if_pos hp, byteAt_setByteAt _ _ _ _ (by omega) (by omega)]
        by_cases hij : j = i
        · subst hij
          simp
        · have hm : j % 2 ≠ i % 2 := by omega
          simp [hij, hm]
      · have hij : j ≠ i := by rintro rfl; exact hp rfl
        simp [hp, hij]
    · have hij : j ≠ i := by omega
      simp [hj, hij]
  · cases h

end Sys2Proof.Machine
end

