-- ==== Sys2Proof/Laws/State.lean ====
section
/-! SUPPORT. The small lemmas of the state's updates: what each shared operation leaves in each field it
does not compute, true by unfolding once, so that no proof unfolds a record update. -/

namespace Sys2Proof.Machine

/-! ### `emit` -/

@[simp] theorem emit_req (es : List BusEvent) (s : State) : (emit es s).req = s.req := rfl
@[simp] theorem emit_act (es : List BusEvent) (s : State) : (emit es s).act = s.act := rfl
@[simp] theorem emit_cfg (es : List BusEvent) (s : State) : (emit es s).cfg = s.cfg := rfl
@[simp] theorem emit_fb (es : List BusEvent) (s : State) : (emit es s).fb = s.fb := rfl
@[simp] theorem emit_keys (es : List BusEvent) (s : State) : (emit es s).keys = s.keys := rfl
@[simp] theorem emit_rdata (es : List BusEvent) (s : State) : (emit es s).rdata = s.rdata := rfl
@[simp] theorem emit_rescanMs (es : List BusEvent) (s : State) : (emit es s).rescanMs = s.rescanMs := rfl
@[simp] theorem emit_repaintMs (es : List BusEvent) (s : State) : (emit es s).repaintMs = s.repaintMs := rfl
@[simp] theorem emit_cs (es : List BusEvent) (s : State) : (emit es s).cs = s.cs := rfl
@[simp] theorem emit_rxmode (es : List BusEvent) (s : State) : (emit es s).rxmode = s.rxmode := rfl
@[simp] theorem emit_xfer (es : List BusEvent) (s : State) : (emit es s).xfer = s.xfer := rfl
@[simp] theorem emit_evt (es : List BusEvent) (s : State) : (emit es s).evt = s.evt := rfl
@[simp] theorem emit_kstage (es : List BusEvent) (s : State) : (emit es s).kstage = s.kstage := rfl
@[simp] theorem emit_trace (es : List BusEvent) (s : State) : (emit es s).trace = s.trace ++ es := rfl
@[simp] theorem emit_fault (es : List BusEvent) (s : State) : (emit es s).fault = s.fault := rfl
@[simp] theorem emit_refused (es : List BusEvent) (s : State) : (emit es s).refused = s.refused := rfl
@[simp] theorem emit_hpc (es : List BusEvent) (s : State) : (emit es s).hpc = s.hpc := rfl
@[simp] theorem emit_gkPos (es : List BusEvent) (s : State) : (emit es s).gkPos = s.gkPos := rfl
@[simp] theorem emit_t0 (es : List BusEvent) (s : State) : (emit es s).t0 = s.t0 := rfl
@[simp] theorem emit_program (es : List BusEvent) (s : State) : (emit es s).program = s.program := rfl
@[simp] theorem emit_agenda (es : List BusEvent) (s : State) : (emit es s).agenda = s.agenda := rfl
@[simp] theorem emit_tick (es : List BusEvent) (s : State) : (emit es s).tick = s.tick := rfl
@[simp] theorem emit_params (es : List BusEvent) (s : State) : (emit es s).params = s.params := rfl

/-! ### `retire` -/

@[simp] theorem retire_req (s : State) : (retire s).req = s.req := rfl
@[simp] theorem retire_act (s : State) : (retire s).act = s.act := rfl
@[simp] theorem retire_cfg (s : State) : (retire s).cfg = s.cfg := rfl
@[simp] theorem retire_fb (s : State) : (retire s).fb = s.fb := rfl
@[simp] theorem retire_keys (s : State) : (retire s).keys = s.keys := rfl
@[simp] theorem retire_rdata (s : State) : (retire s).rdata = s.rdata := rfl
@[simp] theorem retire_rescanMs (s : State) : (retire s).rescanMs = s.rescanMs := rfl
@[simp] theorem retire_repaintMs (s : State) : (retire s).repaintMs = s.repaintMs := rfl
@[simp] theorem retire_cs (s : State) : (retire s).cs = s.cs := rfl
@[simp] theorem retire_rxmode (s : State) : (retire s).rxmode = s.rxmode := rfl
@[simp] theorem retire_xfer (s : State) : (retire s).xfer = s.xfer := rfl
@[simp] theorem retire_evt (s : State) : (retire s).evt = s.evt := rfl
@[simp] theorem retire_kstage (s : State) : (retire s).kstage = s.kstage := rfl
@[simp] theorem retire_trace (s : State) : (retire s).trace = s.trace := rfl
@[simp] theorem retire_fault (s : State) : (retire s).fault = s.fault := rfl
@[simp] theorem retire_refused (s : State) : (retire s).refused = s.refused := rfl
@[simp] theorem retire_hpc (s : State) : (retire s).hpc = s.hpc + 1 := rfl
@[simp] theorem retire_gkPos (s : State) : (retire s).gkPos = s.gkPos := rfl
@[simp] theorem retire_t0 (s : State) : (retire s).t0 = s.t0 := rfl
@[simp] theorem retire_program (s : State) : (retire s).program = s.program := rfl
@[simp] theorem retire_agenda (s : State) : (retire s).agenda = s.agenda := rfl
@[simp] theorem retire_tick (s : State) : (retire s).tick = s.tick := rfl
@[simp] theorem retire_params (s : State) : (retire s).params = s.params := rfl

/-! ### `start` -/

@[simp] theorem start_req (k : Kind) (s : State) : (start k s).req = s.req &&& ~~~(kindBit (kindCode k)) := rfl
@[simp] theorem start_act (k : Kind) (s : State) : (start k s).act = .busy (kindCode k) 0 0 := rfl
@[simp] theorem start_cfg (k : Kind) (s : State) : (start k s).cfg = s.cfg := rfl
@[simp] theorem start_fb (k : Kind) (s : State) : (start k s).fb = s.fb := rfl
@[simp] theorem start_keys (k : Kind) (s : State) : (start k s).keys = s.keys := rfl
@[simp] theorem start_rdata (k : Kind) (s : State) : (start k s).rdata = s.rdata := rfl
@[simp] theorem start_rescanMs (k : Kind) (s : State) : (start k s).rescanMs = s.rescanMs := rfl
@[simp] theorem start_repaintMs (k : Kind) (s : State) : (start k s).repaintMs = s.repaintMs := rfl
@[simp] theorem start_cs (k : Kind) (s : State) : (start k s).cs = true := rfl
@[simp] theorem start_rxmode (k : Kind) (s : State) : (start k s).rxmode = s.rxmode := rfl
@[simp] theorem start_xfer (k : Kind) (s : State) : (start k s).xfer = .tx (openingByte k s.cfg) := rfl
@[simp] theorem start_evt (k : Kind) (s : State) : (start k s).evt = s.evt := rfl
@[simp] theorem start_kstage (k : Kind) (s : State) : (start k s).kstage = s.kstage := rfl
@[simp] theorem start_trace (k : Kind) (s : State) : (start k s).trace = s.trace ++ [.select, .tx (openingByte k s.cfg)] := rfl
@[simp] theorem start_fault (k : Kind) (s : State) : (start k s).fault = s.fault := rfl
@[simp] theorem start_refused (k : Kind) (s : State) : (start k s).refused = s.refused := rfl
@[simp] theorem start_hpc (k : Kind) (s : State) : (start k s).hpc = s.hpc := rfl
@[simp] theorem start_gkPos (k : Kind) (s : State) : (start k s).gkPos = s.gkPos := rfl
@[simp] theorem start_t0 (k : Kind) (s : State) : (start k s).t0 = s.t0 := rfl
@[simp] theorem start_program (k : Kind) (s : State) : (start k s).program = s.program := rfl
@[simp] theorem start_agenda (k : Kind) (s : State) : (start k s).agenda = s.agenda := rfl
@[simp] theorem start_tick (k : Kind) (s : State) : (start k s).tick = s.tick := rfl
@[simp] theorem start_params (k : Kind) (s : State) : (start k s).params = s.params := rfl

/-! ### `raiseFault` -/

@[simp] theorem raiseFault_req (r : FaultReason) (s : State) : (raiseFault r s).req = s.req := rfl
@[simp] theorem raiseFault_act (r : FaultReason) (s : State) : (raiseFault r s).act = s.act := rfl
@[simp] theorem raiseFault_cfg (r : FaultReason) (s : State) : (raiseFault r s).cfg = s.cfg := rfl
@[simp] theorem raiseFault_fb (r : FaultReason) (s : State) : (raiseFault r s).fb = s.fb := rfl
@[simp] theorem raiseFault_keys (r : FaultReason) (s : State) : (raiseFault r s).keys = s.keys := rfl
@[simp] theorem raiseFault_rdata (r : FaultReason) (s : State) : (raiseFault r s).rdata = s.rdata := rfl
@[simp] theorem raiseFault_rescanMs (r : FaultReason) (s : State) : (raiseFault r s).rescanMs = s.rescanMs := rfl
@[simp] theorem raiseFault_repaintMs (r : FaultReason) (s : State) : (raiseFault r s).repaintMs = s.repaintMs := rfl
@[simp] theorem raiseFault_cs (r : FaultReason) (s : State) : (raiseFault r s).cs = s.cs := rfl
@[simp] theorem raiseFault_rxmode (r : FaultReason) (s : State) : (raiseFault r s).rxmode = s.rxmode := rfl
@[simp] theorem raiseFault_xfer (r : FaultReason) (s : State) : (raiseFault r s).xfer = s.xfer := rfl
@[simp] theorem raiseFault_evt (r : FaultReason) (s : State) : (raiseFault r s).evt = s.evt := rfl
@[simp] theorem raiseFault_kstage (r : FaultReason) (s : State) : (raiseFault r s).kstage = s.kstage := rfl
@[simp] theorem raiseFault_trace (r : FaultReason) (s : State) : (raiseFault r s).trace = s.trace := rfl
@[simp] theorem raiseFault_fault (r : FaultReason) (s : State) : (raiseFault r s).fault = some r := rfl
@[simp] theorem raiseFault_refused (r : FaultReason) (s : State) : (raiseFault r s).refused = s.refused := rfl
@[simp] theorem raiseFault_hpc (r : FaultReason) (s : State) : (raiseFault r s).hpc = s.hpc := rfl
@[simp] theorem raiseFault_gkPos (r : FaultReason) (s : State) : (raiseFault r s).gkPos = s.gkPos := rfl
@[simp] theorem raiseFault_t0 (r : FaultReason) (s : State) : (raiseFault r s).t0 = s.t0 := rfl
@[simp] theorem raiseFault_program (r : FaultReason) (s : State) : (raiseFault r s).program = s.program := rfl
@[simp] theorem raiseFault_agenda (r : FaultReason) (s : State) : (raiseFault r s).agenda = s.agenda := rfl
@[simp] theorem raiseFault_tick (r : FaultReason) (s : State) : (raiseFault r s).tick = s.tick := rfl
@[simp] theorem raiseFault_params (r : FaultReason) (s : State) : (raiseFault r s).params = s.params := rfl

/-! ### `refuseWord` -/

@[simp] theorem refuseWord_req (s : State) : (refuseWord s).req = s.req := rfl
@[simp] theorem refuseWord_act (s : State) : (refuseWord s).act = s.act := rfl
@[simp] theorem refuseWord_cfg (s : State) : (refuseWord s).cfg = s.cfg := rfl
@[simp] theorem refuseWord_fb (s : State) : (refuseWord s).fb = s.fb := rfl
@[simp] theorem refuseWord_keys (s : State) : (refuseWord s).keys = s.keys := rfl
@[simp] theorem refuseWord_rdata (s : State) : (refuseWord s).rdata = s.rdata := rfl
@[simp] theorem refuseWord_rescanMs (s : State) : (refuseWord s).rescanMs = s.rescanMs := rfl
@[simp] theorem refuseWord_repaintMs (s : State) : (refuseWord s).repaintMs = s.repaintMs := rfl
@[simp] theorem refuseWord_cs (s : State) : (refuseWord s).cs = s.cs := rfl
@[simp] theorem refuseWord_rxmode (s : State) : (refuseWord s).rxmode = s.rxmode := rfl
@[simp] theorem refuseWord_xfer (s : State) : (refuseWord s).xfer = s.xfer := rfl
@[simp] theorem refuseWord_evt (s : State) : (refuseWord s).evt = s.evt := rfl
@[simp] theorem refuseWord_kstage (s : State) : (refuseWord s).kstage = s.kstage := rfl
@[simp] theorem refuseWord_trace (s : State) : (refuseWord s).trace = s.trace := rfl
@[simp] theorem refuseWord_fault (s : State) : (refuseWord s).fault = s.fault := rfl
@[simp] theorem refuseWord_refused (s : State) : (refuseWord s).refused = true := rfl
@[simp] theorem refuseWord_hpc (s : State) : (refuseWord s).hpc = s.hpc := rfl
@[simp] theorem refuseWord_gkPos (s : State) : (refuseWord s).gkPos = s.gkPos := rfl
@[simp] theorem refuseWord_t0 (s : State) : (refuseWord s).t0 = s.t0 := rfl
@[simp] theorem refuseWord_program (s : State) : (refuseWord s).program = s.program := rfl
@[simp] theorem refuseWord_agenda (s : State) : (refuseWord s).agenda = s.agenda := rfl
@[simp] theorem refuseWord_tick (s : State) : (refuseWord s).tick = s.tick := rfl
@[simp] theorem refuseWord_params (s : State) : (refuseWord s).params = s.params := rfl

/-! ### `consumeTurn` -/

@[simp] theorem consumeTurn_req (s : State) : (consumeTurn s).req = s.req := rfl
@[simp] theorem consumeTurn_act (s : State) : (consumeTurn s).act = s.act := rfl
@[simp] theorem consumeTurn_cfg (s : State) : (consumeTurn s).cfg = s.cfg := rfl
@[simp] theorem consumeTurn_fb (s : State) : (consumeTurn s).fb = s.fb := rfl
@[simp] theorem consumeTurn_keys (s : State) : (consumeTurn s).keys = s.keys := rfl
@[simp] theorem consumeTurn_rdata (s : State) : (consumeTurn s).rdata = s.rdata := rfl
@[simp] theorem consumeTurn_rescanMs (s : State) : (consumeTurn s).rescanMs = s.rescanMs := rfl
@[simp] theorem consumeTurn_repaintMs (s : State) : (consumeTurn s).repaintMs = s.repaintMs := rfl
@[simp] theorem consumeTurn_cs (s : State) : (consumeTurn s).cs = s.cs := rfl
@[simp] theorem consumeTurn_rxmode (s : State) : (consumeTurn s).rxmode = s.rxmode := rfl
@[simp] theorem consumeTurn_xfer (s : State) : (consumeTurn s).xfer = s.xfer := rfl
@[simp] theorem consumeTurn_evt (s : State) : (consumeTurn s).evt = s.evt := rfl
@[simp] theorem consumeTurn_kstage (s : State) : (consumeTurn s).kstage = s.kstage := rfl
@[simp] theorem consumeTurn_trace (s : State) : (consumeTurn s).trace = s.trace := rfl
@[simp] theorem consumeTurn_fault (s : State) : (consumeTurn s).fault = s.fault := rfl
@[simp] theorem consumeTurn_refused (s : State) : (consumeTurn s).refused = s.refused := rfl
@[simp] theorem consumeTurn_hpc (s : State) : (consumeTurn s).hpc = s.hpc := rfl
@[simp] theorem consumeTurn_gkPos (s : State) : (consumeTurn s).gkPos = s.gkPos := rfl
@[simp] theorem consumeTurn_t0 (s : State) : (consumeTurn s).t0 = s.t0 := rfl
@[simp] theorem consumeTurn_program (s : State) : (consumeTurn s).program = s.program := rfl
@[simp] theorem consumeTurn_agenda (s : State) : (consumeTurn s).agenda = s.agenda.tail := rfl
@[simp] theorem consumeTurn_tick (s : State) : (consumeTurn s).tick = s.tick + 1 := rfl
@[simp] theorem consumeTurn_params (s : State) : (consumeTurn s).params = s.params := rfl

/-! ### `rkStepZero` -/

@[simp] theorem rkStepZero_req (s : State) : (rkStepZero s).req = s.req := rfl
@[simp] theorem rkStepZero_act (s : State) : (rkStepZero s).act = .busy (kindCode .rk) 1 0 := rfl
@[simp] theorem rkStepZero_cfg (s : State) : (rkStepZero s).cfg = s.cfg := rfl
@[simp] theorem rkStepZero_fb (s : State) : (rkStepZero s).fb = s.fb := rfl
@[simp] theorem rkStepZero_keys (s : State) : (rkStepZero s).keys = s.keys := rfl
@[simp] theorem rkStepZero_rdata (s : State) : (rkStepZero s).rdata = s.rdata := rfl
@[simp] theorem rkStepZero_rescanMs (s : State) : (rkStepZero s).rescanMs = s.rescanMs := rfl
@[simp] theorem rkStepZero_repaintMs (s : State) : (rkStepZero s).repaintMs = s.repaintMs := rfl
@[simp] theorem rkStepZero_cs (s : State) : (rkStepZero s).cs = s.cs := rfl
@[simp] theorem rkStepZero_rxmode (s : State) : (rkStepZero s).rxmode = true := rfl
@[simp] theorem rkStepZero_xfer (s : State) : (rkStepZero s).xfer = .rx := rfl
@[simp] theorem rkStepZero_evt (s : State) : (rkStepZero s).evt = s.evt := rfl
@[simp] theorem rkStepZero_kstage (s : State) : (rkStepZero s).kstage = s.kstage := rfl
@[simp] theorem rkStepZero_trace (s : State) : (rkStepZero s).trace = s.trace ++ [.rxOn, .rxStart] := rfl
@[simp] theorem rkStepZero_fault (s : State) : (rkStepZero s).fault = s.fault := rfl
@[simp] theorem rkStepZero_refused (s : State) : (rkStepZero s).refused = s.refused := rfl
@[simp] theorem rkStepZero_hpc (s : State) : (rkStepZero s).hpc = s.hpc := rfl
@[simp] theorem rkStepZero_gkPos (s : State) : (rkStepZero s).gkPos = s.gkPos := rfl
@[simp] theorem rkStepZero_t0 (s : State) : (rkStepZero s).t0 = s.t0 := rfl
@[simp] theorem rkStepZero_program (s : State) : (rkStepZero s).program = s.program := rfl
@[simp] theorem rkStepZero_agenda (s : State) : (rkStepZero s).agenda = s.agenda := rfl
@[simp] theorem rkStepZero_tick (s : State) : (rkStepZero s).tick = s.tick := rfl
@[simp] theorem rkStepZero_params (s : State) : (rkStepZero s).params = s.params := rfl

/-! ### `readKeyByte` -/

@[simp] theorem readKeyByte_req (s : State) : (readKeyByte s).req = s.req := rfl
@[simp] theorem readKeyByte_act (s : State) : (readKeyByte s).act = s.act := rfl
@[simp] theorem readKeyByte_cfg (s : State) : (readKeyByte s).cfg = s.cfg := rfl
@[simp] theorem readKeyByte_fb (s : State) : (readKeyByte s).fb = s.fb := rfl
@[simp] theorem readKeyByte_keys (s : State) : (readKeyByte s).keys = s.keys := rfl
@[simp] theorem readKeyByte_rdata (s : State) : (readKeyByte s).rdata = setByteAt s.rdata s.gkPos.toNat (byteAt s.keys s.gkPos.toNat) := rfl
@[simp] theorem readKeyByte_rescanMs (s : State) : (readKeyByte s).rescanMs = s.rescanMs := rfl
@[simp] theorem readKeyByte_repaintMs (s : State) : (readKeyByte s).repaintMs = s.repaintMs := rfl
@[simp] theorem readKeyByte_cs (s : State) : (readKeyByte s).cs = s.cs := rfl
@[simp] theorem readKeyByte_rxmode (s : State) : (readKeyByte s).rxmode = s.rxmode := rfl
@[simp] theorem readKeyByte_xfer (s : State) : (readKeyByte s).xfer = s.xfer := rfl
@[simp] theorem readKeyByte_evt (s : State) : (readKeyByte s).evt = s.evt := rfl
@[simp] theorem readKeyByte_kstage (s : State) : (readKeyByte s).kstage = s.kstage := rfl
@[simp] theorem readKeyByte_trace (s : State) : (readKeyByte s).trace = s.trace := rfl
@[simp] theorem readKeyByte_fault (s : State) : (readKeyByte s).fault = s.fault := rfl
@[simp] theorem readKeyByte_refused (s : State) : (readKeyByte s).refused = s.refused := rfl
@[simp] theorem readKeyByte_hpc (s : State) : (readKeyByte s).hpc = s.hpc := rfl
@[simp] theorem readKeyByte_gkPos (s : State) : (readKeyByte s).gkPos = s.gkPos + 1 := rfl
@[simp] theorem readKeyByte_t0 (s : State) : (readKeyByte s).t0 = s.t0 := rfl
@[simp] theorem readKeyByte_program (s : State) : (readKeyByte s).program = s.program := rfl
@[simp] theorem readKeyByte_agenda (s : State) : (readKeyByte s).agenda = s.agenda := rfl
@[simp] theorem readKeyByte_tick (s : State) : (readKeyByte s).tick = s.tick := rfl
@[simp] theorem readKeyByte_params (s : State) : (readKeyByte s).params = s.params := rfl

/-! ### `dispatch`, `requestKinds`, `finish`, `transportComplete`: the fields they leave alone -/

@[simp] theorem dispatch_cfg (s : State) : (dispatch s).cfg = s.cfg := by
  unfold dispatch; split <;> rfl

@[simp] theorem dispatch_fb (s : State) : (dispatch s).fb = s.fb := by
  unfold dispatch; split <;> rfl

@[simp] theorem dispatch_keys (s : State) : (dispatch s).keys = s.keys := by
  unfold dispatch; split <;> rfl

@[simp] theorem dispatch_rdata (s : State) : (dispatch s).rdata = s.rdata := by
  unfold dispatch; split <;> rfl

@[simp] theorem dispatch_rescanMs (s : State) : (dispatch s).rescanMs = s.rescanMs := by
  unfold dispatch; split <;> rfl

@[simp] theorem dispatch_repaintMs (s : State) : (dispatch s).repaintMs = s.repaintMs := by
  unfold dispatch; split <;> rfl

@[simp] theorem dispatch_rxmode (s : State) : (dispatch s).rxmode = s.rxmode := by
  unfold dispatch; split <;> rfl

@[simp] theorem dispatch_evt (s : State) : (dispatch s).evt = s.evt := by
  unfold dispatch; split <;> rfl

@[simp] theorem dispatch_kstage (s : State) : (dispatch s).kstage = s.kstage := by
  unfold dispatch; split <;> rfl

@[simp] theorem dispatch_fault (s : State) : (dispatch s).fault = s.fault := by
  unfold dispatch; split <;> rfl

@[simp] theorem dispatch_refused (s : State) : (dispatch s).refused = s.refused := by
  unfold dispatch; split <;> rfl

@[simp] theorem dispatch_hpc (s : State) : (dispatch s).hpc = s.hpc := by
  unfold dispatch; split <;> rfl

@[simp] theorem dispatch_gkPos (s : State) : (dispatch s).gkPos = s.gkPos := by
  unfold dispatch; split <;> rfl

@[simp] theorem dispatch_t0 (s : State) : (dispatch s).t0 = s.t0 := by
  unfold dispatch; split <;> rfl

@[simp] theorem dispatch_program (s : State) : (dispatch s).program = s.program := by
  unfold dispatch; split <;> rfl

@[simp] theorem dispatch_agenda (s : State) : (dispatch s).agenda = s.agenda := by
  unfold dispatch; split <;> rfl

@[simp] theorem dispatch_tick (s : State) : (dispatch s).tick = s.tick := by
  unfold dispatch; split <;> rfl

@[simp] theorem dispatch_params (s : State) : (dispatch s).params = s.params := by
  unfold dispatch; split <;> rfl

@[simp] theorem requestKinds_cfg (mask : BitVec 3) (s : State) : (requestKinds mask s).cfg = s.cfg := by
  unfold requestKinds; split <;> simp

@[simp] theorem requestKinds_fb (mask : BitVec 3) (s : State) : (requestKinds mask s).fb = s.fb := by
  unfold requestKinds; split <;> simp

@[simp] theorem requestKinds_keys (mask : BitVec 3) (s : State) : (requestKinds mask s).keys = s.keys := by
  unfold requestKinds; split <;> simp

@[simp] theorem requestKinds_rdata (mask : BitVec 3) (s : State) : (requestKinds mask s).rdata = s.rdata := by
  unfold requestKinds; split <;> simp

@[simp] theorem requestKinds_rescanMs (mask : BitVec 3) (s : State) : (requestKinds mask s).rescanMs = s.rescanMs := by
  unfold requestKinds; split <;> simp

@[simp] theorem requestKinds_repaintMs (mask : BitVec 3) (s : State) : (requestKinds mask s).repaintMs = s.repaintMs := by
  unfold requestKinds; split <;> simp

@[simp] theorem requestKinds_rxmode (mask : BitVec 3) (s : State) : (requestKinds mask s).rxmode = s.rxmode := by
  unfold requestKinds; split <;> simp

@[simp] theorem requestKinds_evt (mask : BitVec 3) (s : State) : (requestKinds mask s).evt = s.evt := by
  unfold requestKinds; split <;> simp

@[simp] theorem requestKinds_kstage (mask : BitVec 3) (s : State) : (requestKinds mask s).kstage = s.kstage := by
  unfold requestKinds; split <;> simp

@[simp] theorem requestKinds_fault (mask : BitVec 3) (s : State) : (requestKinds mask s).fault = s.fault := by
  unfold requestKinds; split <;> simp

@[simp] theorem requestKinds_refused (mask : BitVec 3) (s : State) : (requestKinds mask s).refused = s.refused := by
  unfold requestKinds; split <;> simp

@[simp] theorem requestKinds_hpc (mask : BitVec 3) (s : State) : (requestKinds mask s).hpc = s.hpc := by
  unfold requestKinds; split <;> simp

@[simp] theorem requestKinds_gkPos (mask : BitVec 3) (s : State) : (requestKinds mask s).gkPos = s.gkPos := by
  unfold requestKinds; split <;> simp

@[simp] theorem requestKinds_t0 (mask : BitVec 3) (s : State) : (requestKinds mask s).t0 = s.t0 := by
  unfold requestKinds; split <;> simp

@[simp] theorem requestKinds_program (mask : BitVec 3) (s : State) : (requestKinds mask s).program = s.program := by
  unfold requestKinds; split <;> simp

@[simp] theorem requestKinds_agenda (mask : BitVec 3) (s : State) : (requestKinds mask s).agenda = s.agenda := by
  unfold requestKinds; split <;> simp

@[simp] theorem requestKinds_tick (mask : BitVec 3) (s : State) : (requestKinds mask s).tick = s.tick := by
  unfold requestKinds; split <;> simp

@[simp] theorem requestKinds_params (mask : BitVec 3) (s : State) : (requestKinds mask s).params = s.params := by
  unfold requestKinds; split <;> simp

@[simp] theorem finish_cfg (s : State) : (finish s).cfg = s.cfg := by simp [finish]

@[simp] theorem finish_fb (s : State) : (finish s).fb = s.fb := by simp [finish]

@[simp] theorem finish_keys (s : State) : (finish s).keys = s.keys := by simp [finish]

@[simp] theorem finish_rdata (s : State) : (finish s).rdata = s.rdata := by simp [finish]

@[simp] theorem finish_rescanMs (s : State) : (finish s).rescanMs = s.rescanMs := by simp [finish]

@[simp] theorem finish_repaintMs (s : State) : (finish s).repaintMs = s.repaintMs := by simp [finish]

@[simp] theorem finish_rxmode (s : State) : (finish s).rxmode = s.rxmode := by simp [finish]

@[simp] theorem finish_evt (s : State) : (finish s).evt = s.evt := by simp [finish]

@[simp] theorem finish_kstage (s : State) : (finish s).kstage = s.kstage := by simp [finish]

@[simp] theorem finish_fault (s : State) : (finish s).fault = s.fault := by simp [finish]

@[simp] theorem finish_refused (s : State) : (finish s).refused = s.refused := by simp [finish]

@[simp] theorem finish_hpc (s : State) : (finish s).hpc = s.hpc := by simp [finish]

@[simp] theorem finish_gkPos (s : State) : (finish s).gkPos = s.gkPos := by simp [finish]

@[simp] theorem finish_t0 (s : State) : (finish s).t0 = s.t0 := by simp [finish]

@[simp] theorem finish_program (s : State) : (finish s).program = s.program := by simp [finish]

@[simp] theorem finish_agenda (s : State) : (finish s).agenda = s.agenda := by simp [finish]

@[simp] theorem finish_tick (s : State) : (finish s).tick = s.tick := by simp [finish]

@[simp] theorem finish_params (s : State) : (finish s).params = s.params := by simp [finish]

@[simp] theorem transportComplete_req (r : Byte) (s : State) : (transportComplete r s).req = s.req := by
  unfold transportComplete; split <;> rfl

@[simp] theorem transportComplete_act (r : Byte) (s : State) : (transportComplete r s).act = s.act := by
  unfold transportComplete; split <;> rfl

@[simp] theorem transportComplete_cfg (r : Byte) (s : State) : (transportComplete r s).cfg = s.cfg := by
  unfold transportComplete; split <;> rfl

@[simp] theorem transportComplete_fb (r : Byte) (s : State) : (transportComplete r s).fb = s.fb := by
  unfold transportComplete; split <;> rfl

@[simp] theorem transportComplete_keys (r : Byte) (s : State) : (transportComplete r s).keys = s.keys := by
  unfold transportComplete; split <;> rfl

@[simp] theorem transportComplete_rdata (r : Byte) (s : State) : (transportComplete r s).rdata = s.rdata := by
  unfold transportComplete; split <;> rfl

@[simp] theorem transportComplete_rescanMs (r : Byte) (s : State) : (transportComplete r s).rescanMs = s.rescanMs := by
  unfold transportComplete; split <;> rfl

@[simp] theorem transportComplete_repaintMs (r : Byte) (s : State) : (transportComplete r s).repaintMs = s.repaintMs := by
  unfold transportComplete; split <;> rfl

@[simp] theorem transportComplete_cs (r : Byte) (s : State) : (transportComplete r s).cs = s.cs := by
  unfold transportComplete; split <;> rfl

@[simp] theorem transportComplete_rxmode (r : Byte) (s : State) : (transportComplete r s).rxmode = s.rxmode := by
  unfold transportComplete; split <;> rfl

@[simp] theorem transportComplete_kstage (r : Byte) (s : State) : (transportComplete r s).kstage = s.kstage := by
  unfold transportComplete; split <;> rfl

@[simp] theorem transportComplete_fault (r : Byte) (s : State) : (transportComplete r s).fault = s.fault := by
  unfold transportComplete; split <;> rfl

@[simp] theorem transportComplete_refused (r : Byte) (s : State) : (transportComplete r s).refused = s.refused := by
  unfold transportComplete; split <;> rfl

@[simp] theorem transportComplete_hpc (r : Byte) (s : State) : (transportComplete r s).hpc = s.hpc := by
  unfold transportComplete; split <;> rfl

@[simp] theorem transportComplete_gkPos (r : Byte) (s : State) : (transportComplete r s).gkPos = s.gkPos := by
  unfold transportComplete; split <;> rfl

@[simp] theorem transportComplete_t0 (r : Byte) (s : State) : (transportComplete r s).t0 = s.t0 := by
  unfold transportComplete; split <;> rfl

@[simp] theorem transportComplete_program (r : Byte) (s : State) : (transportComplete r s).program = s.program := by
  unfold transportComplete; split <;> rfl

@[simp] theorem transportComplete_agenda (r : Byte) (s : State) : (transportComplete r s).agenda = s.agenda := by
  unfold transportComplete; split <;> rfl

@[simp] theorem transportComplete_tick (r : Byte) (s : State) : (transportComplete r s).tick = s.tick := by
  unfold transportComplete; split <;> rfl

@[simp] theorem transportComplete_params (r : Byte) (s : State) : (transportComplete r s).params = s.params := by
  unfold transportComplete; split <;> rfl

@[simp] theorem transportComplete_xfer (r : Byte) (s : State) : (transportComplete r s).xfer = .none := by
  unfold transportComplete; split <;> simp_all

end Sys2Proof.Machine
end

