-- ==== Sys2Proof/Laws/Ops.lean ====
section
/-! SUPPORT. What each shared operation, each agent and a step can do, said once. -/

namespace Sys2Proof.Machine

@[simp] theorem kindOf_kindCode (k : Kind) : kindOf (kindCode k) = some k := by cases k <;> decide

theorem kindOf_eq_some {code : BitVec 2} {k : Kind} (h : kindOf code = some k) : code = kindCode k := by
  revert h; revert code; cases k <;> decide

/-! ### The Arbiter -/

/-- `Select` answers the kind of the lowest set bit. -/
theorem selectKind_eq_some {x : BitVec 3} {k : Kind} :
    selectKind x = some k ↔
      x.getLsbD (kindCode k).toNat = true ∧ ∀ j < (kindCode k).toNat, x.getLsbD j = false := by
  revert x; cases k <;> decide

theorem selectKind_eq_none {x : BitVec 3} : selectKind x = none ↔ x = 0 := by
  revert x; decide

@[simp] theorem selectKind_zero : selectKind 0 = none := by decide

/-- A dispatch starts the selected kind or does nothing. -/
theorem dispatch_cases (s : State) :
    (s.req = 0 ∧ dispatch s = s) ∨ ∃ k, selectKind s.req = some k ∧ dispatch s = start k s := by
  unfold dispatch
  split <;> rename_i h
  · exact .inl ⟨selectKind_eq_none.1 h, rfl⟩
  · exact .inr ⟨_, h, rfl⟩

theorem requestKinds_idle {mask : BitVec 3} {s : State} (h : s.act = .idle) :
    requestKinds mask s = dispatch { s with req := s.req ||| mask } := by
  simp [requestKinds, h]

theorem requestKinds_busy {mask : BitVec 3} {s : State} {code : BitVec 2} {st c : BitVec 5}
    (h : s.act = .busy code st c) :
    requestKinds mask s = { s with req := s.req ||| (mask &&& ~~~(kindBit code)) } := by
  simp [requestKinds, h]

/-- An idle block with the highest-priority requested kind `k` starts it. -/
theorem requestKinds_starts {mask : BitVec 3} {s : State} {k : Kind} (h : s.act = .idle)
    (hk : selectKind (s.req ||| mask) = some k) :
    requestKinds mask s = start k { s with req := s.req ||| mask } := by
  simp [requestKinds, h, dispatch, hk]

/-- With nothing requested, a finished command leaves the block idle. -/
theorem finish_rests {s : State} (h : s.req = 0) :
    finish s = { s with act := .idle, cs := false, trace := s.trace ++ [.deselect] } := by
  have h0 : selectKind (0#3) = none := by decide
  simp [finish, emit, dispatch, h, h0]

/-- With kinds requested, a finished command is followed at once by the one of highest priority. -/
theorem finish_chains {s : State} {k : Kind} (h : selectKind s.req = some k) :
    finish s = start k { s with act := .idle, cs := false, trace := s.trace ++ [.deselect] } := by
  simp [finish, emit, dispatch, h]

/-! ### The transport -/

/-- What the transport's completion can do. -/
theorem transportComplete_cases (r : Byte) (s : State) :
    (s.xfer = .none ∧ transportComplete r s = s) ∨
    (∃ b, s.xfer = .tx b ∧ transportComplete r s = { s with evt := .done none, xfer := .none }) ∨
    (s.xfer = .rx ∧ transportComplete r s =
      { s with evt := .done (some r), xfer := .none, trace := s.trace ++ [.rx r] }) := by
  unfold transportComplete
  split <;> simp_all [emit]

/-- The encoder and the wire decoder agree on a byte that decodes. -/
theorem decodeWire_encode {b : Byte} {i : Instr} (h : decodeWire b = .instr i) : encode i = .wire8 b := by
  revert h
  unfold decodeWire
  have key : ∀ b : Byte,
      (field b 4 4 = 0x8#4 → displayControlByte (b.getLsbD 3) (field b 0 3) = b) ∧
      (field b 4 4 = 0xC#4 → setAddressByte (field b 0 4) = b) := by decide
  split
  · rintro ⟨⟩; exact congrArg _ ((key b).1 ‹_›)
  · split
    · rintro ⟨⟩; simp_all [encode, readDataByte]
    · split
      · rintro ⟨⟩; simp_all [encode, writeDataByte]
      · split
        · rintro ⟨⟩; exact congrArg _ ((key b).2 ‹_›)
        · rintro ⟨⟩

/-- On a transmitted byte the drawn byte plays no part. -/
theorem transportComplete_tx {b r : Byte} {s : State} (h : s.xfer = .tx b) :
    transportComplete r s = transportComplete 0 s := by
  simp [transportComplete, h]

/-- A wire byte on the bus is sent: its meaning there is the transport's completion. -/
theorem exec_onBus {i : Instr} {b : Byte} {s : State} (he : encode i = .wire8 b) (hx : s.xfer = .tx b) :
    exec i s = .next (transportComplete 0 s) := by
  cases i <;> simp_all [encode, exec, execWireDisplayControl, execWireReadData, execWireWriteData,
    execWireSetAddress, wireOpcode, onBus]

/-- The transport's step is its completion, whether or not the byte is an opcode. -/
theorem transportStep_eq (r : Byte) (s : State) : transportStep r s = .next (transportComplete r s) := by
  unfold transportStep
  split <;> rename_i h
  · unfold fetchWire at h
    split at h
    · rename_i hx
      split at h
      · have hd := Option.some.inj h
        rw [exec_onBus (decodeWire_encode hd) hx, transportComplete_tx (r := r) hx]
      · cases h
    · cases h
  · rfl

/-! ### A step -/

/-- The ways a step can answer a next state. -/
theorem step_next_cases {s t : State} (h : step s = .next t) :
    (anyEnabled s = false ∧ t = s ∧ s.fault = none ∧ s.refused = false ∧ atGoodEnd s = true) ∨
    (anyEnabled s = true ∧
      ((isEnabled (nextTurn s) (consumeTurn s) = false ∧ t = consumeTurn s) ∨
       (isEnabled (nextTurn s) (consumeTurn s) = true ∧
        ((nextTurn s = .host ∧ hostStep (consumeTurn s) = .next t) ∨
         (nextTurn s = .handler ∧ handlerTurn (consumeTurn s) = .next t) ∨
         (∃ r, nextTurn s = .transport r ∧ t = transportComplete r (consumeTurn s)) ∨
         (nextTurn s = .rescan ∧ t = fireRescan (consumeTurn s)) ∨
         (nextTurn s = .repaint ∧ t = fireRepaint (consumeTurn s)))))) := by
  unfold step advance at h
  split at h <;> rename_i ha
  · refine .inr ⟨ha, ?_⟩
    unfold takeTurn at h
    split at h <;> rename_i he
    · refine .inr ⟨he, ?_⟩
      cases hn : nextTurn s <;> simp only [hn] at h
      · exact .inl ⟨rfl, h⟩
      · exact .inr (.inl ⟨rfl, h⟩)
      · rw [transportStep_eq] at h
        injection h with h
        exact .inr (.inr (.inl ⟨_, rfl, h.symm⟩))
      · injection h with h
        exact .inr (.inr (.inr (.inl ⟨rfl, h.symm⟩)))
      · injection h with h
        exact .inr (.inr (.inr (.inr ⟨rfl, h.symm⟩)))
    · injection h with h
      exact .inl ⟨by simpa using he, h.symm⟩
  · refine .inl ⟨by simpa using ha, ?_⟩
    unfold quiescent at h
    split at h
    · cases h
    · rename_i hf
      split at h
      · cases h
      · rename_i hr
        split at h
        · rename_i hg
          injection h with h
          exact ⟨h.symm, hf, by simpa using hr, hg⟩
        · cases h

/-- A host command word decodes to one of the six host commands. -/
theorem decodeHost_cases {w : Word} {i : Instr} (h : decodeHost w = .instr i) :
    (∃ r p, i = .init r p) ∨ (∃ m, i = .request m) ∨ (∃ p v, i = .writeDigit p v) ∨
    (∃ e, i = .setEnabled e) ∨ (∃ l, i = .setBrightness l) ∨ i = .getKeys := by
  unfold decodeHost at h
  simp only at h
  repeat' (split at h)
  all_goals first | (injection h with h; subst h; simp) | cases h

/-- The host's step answers a next state, by one of the six commands or a refusal. -/
theorem hostStep_cases (s : State) :
    (fetchHost s = none ∧ hostStep s = .next s) ∨
    (∃ why, fetchHost s = some (.reserved why) ∧ hostStep s = .next (refuseWord s)) ∨
    (∃ i w, s.program[s.hpc]? = some w ∧ decodeHost w = .instr i ∧ hostStep s = exec i s) := by
  unfold hostStep
  split <;> rename_i h
  · unfold fetchHost at h
    obtain ⟨w, hw, hd⟩ := Option.map_eq_some_iff.1 h
    exact .inr (.inr ⟨_, w, hw, hd, rfl⟩)
  · exact .inr (.inl ⟨_, h, rfl⟩)
  · exact .inl ⟨h, rfl⟩

/-! ### One agent's turn -/

/-- An enabled turn is taken. -/
theorem step_of_turn {s : State} {t : Turn} (hn : nextTurn s = t) (he : isEnabled t s = true) :
    step s = takeTurn t (consumeTurn s) := by
  have : anyEnabled s = true := by cases t <;> simp_all [anyEnabled, isEnabled]
  simp [step, advance, this, hn]

/-- A run of one step more, by the step it begins with. -/
theorem run_of_next {s t : State} (h : step s = .next t) (n : Nat) :
    core.run (n + 1) s = core.run n t := by
  have h' : core.step s = .next t := h
  simp only [Host.Core.run, h']

/-- The transport's turn with an operation in flight. -/
theorem step_transport {s : State} {r : Byte} (hf : s.fault = none) (hn : nextTurn s = .transport r)
    (hx : s.xfer ≠ .none) : step s = .next (transportComplete r (consumeTurn s)) := by
  rw [step_of_turn hn (by simp [isEnabled, hf, isTransferring, hx])]
  simp [takeTurn, isEnabled, hf, isTransferring, hx, transportStep_eq]

/-- The handler's turn with an event pending. -/
theorem step_handler {s : State} {r : Option Byte} (hf : s.fault = none) (hn : nextTurn s = .handler)
    (he : s.evt = .done r) : step s = onComplete r { consumeTurn s with evt := .none } := by
  rw [step_of_turn hn (by simp [isEnabled, hf, isPending, he])]
  simp [takeTurn, isEnabled, hf, isPending, he, handlerTurn, enterHandler]

/-- What the handler's step leaves alone. -/
theorem handlerTurn_frame {s t : State} (h : handlerTurn s = .next t) :
    t.cfg = s.cfg ∧ t.fb = s.fb ∧ t.rdata = s.rdata ∧ t.rescanMs = s.rescanMs ∧
    t.repaintMs = s.repaintMs ∧ t.t0 = s.t0 ∧ t.gkPos = s.gkPos ∧ t.hpc = s.hpc ∧
    t.refused = s.refused ∧ t.program = s.program ∧ t.agenda = s.agenda ∧ t.tick = s.tick ∧
    t.params = s.params := by
  unfold handlerTurn enterHandler at h
  split at h
  · rename_i he
    split at he
    · cases he
    · injection he with he
      injection he with _ he
      subst he
      simp only [onComplete, handlerStep, rkMid, wsPayload, rkFinal] at h
      repeat' (split at h)
      all_goals first
        | (injection h with h; subst h; simp [wcFinal, wsFinal])
        | cases h
  · injection h with h
    subst h
    simp

/-- The handler's step takes at most one kind out of the RequestedSet, and puts none in. -/
theorem handlerTurn_req {s t : State} (h : handlerTurn s = .next t) :
    t.req = s.req ∨ ∃ k, t.req = s.req &&& ~~~(kindBit (kindCode k)) := by
  have fin : ∀ u : State, (finish u).req = u.req ∨
      ∃ k, (finish u).req = u.req &&& ~~~(kindBit (kindCode k)) := by
    intro u
    unfold finish
    rcases dispatch_cases { emit [.deselect] u with cs := false, act := .idle } with ⟨_, e⟩ | ⟨k, _, e⟩ <;>
      rw [e]
    · exact .inl rfl
    · exact .inr ⟨k, rfl⟩
  unfold handlerTurn enterHandler at h
  split at h
  · rename_i he
    split at he
    · cases he
    · injection he with he
      injection he with _ he
      subst he
      simp only [onComplete, handlerStep, rkMid, wsPayload, rkFinal] at h
      repeat' (split at h)
      all_goals first
        | (injection h with h; subst h; first | exact .inl rfl | exact fin _)
        | cases h
  · injection h with h
    exact .inl (by rw [h])

/-- What the host's step leaves alone. -/
theorem hostStep_frame {s t : State} (h : hostStep s = .next t) :
    t.keys = s.keys ∧ t.kstage = s.kstage ∧ t.evt = s.evt ∧ t.rxmode = s.rxmode ∧
    t.fault = s.fault ∧ t.program = s.program ∧ t.agenda = s.agenda ∧ t.tick = s.tick ∧
    t.params = s.params := by
  rcases hostStep_cases s with ⟨_, e⟩ | ⟨_, _, e⟩ | ⟨i, w, _, hd, e⟩ <;> rw [e] at h
  · injection h with h
    subst h
    simp
  · injection h with h
    subst h
    simp
  · obtain ⟨r, p, rfl⟩ | ⟨m, rfl⟩ | ⟨p, v, rfl⟩ | ⟨e, rfl⟩ | ⟨l, rfl⟩ | rfl := decodeHost_cases hd <;>
    simp only [exec, execInit, execRequest, execWriteDigit, execSetEnabled, execSetBrightness,
      execGetKeys] at h <;>
    injection h with h <;> subst h <;> (try split) <;> (try split) <;> simp

end Sys2Proof.Machine
end

