-- ==== Sys2Proof/Laws/PerInstr.lean ====
section
/-! SUPPORT. Laws stated per instruction. Family `TableRow`: the encoding of a well-formed instruction fits its
row of spec/opcode_table.json (under the row's mask it is the row's match), and no other row's. -/

namespace Sys2Proof.Laws

/-- One instruction of each row. -/
def TableRow.samples : List Instr :=
  [.init 0 0, .request 0, .writeDigit 0 0, .setEnabled false, .setBrightness 0, .getKeys,
    .wireDisplayControl false 0, .wireReadData, .wireWriteData, .wireSetAddress 0]

/-- The encoding of `i` fits the rows whose match and mask are those of `i`'s row, and only those. -/
def TableRow.Statement (i : Instr) : Prop :=
  i.wf = true →
    ∀ j ∈ TableRow.samples, (encode i).fits (tableRow j) = decide (tableRow j = tableRow i)

/-- A word whose operation code is not that of a host row does not fit the row. -/
theorem fits_of_op_ne {w m k c : Word} (hw : w &&& 0xF0000000#32 = c)
    (hk : k &&& 0xF0000000#32 = 0xF0000000#32) (hm : m &&& 0xF0000000#32 ≠ c) :
    (w &&& k == m) = false := by
  rw [beq_eq_false_iff_ne]
  rintro rfl
  apply hm
  rw [BitVec.and_assoc, hk, hw]

theorem init_bits (r p : BitVec 14) :
    (0x1#4 ++ r ++ p : Word) &&& 0xF0000000#32 = 0x10000000#32 := by
  apply BitVec.eq_of_getLsbD_eq
  intro i hi
  interval_cases i <;> simp only [BitVec.getLsbD_and, BitVec.getLsbD_append] <;> simp

theorem writeDigit_bits (pos low : Byte) :
    (0x3#4 ++ 0#12 ++ pos ++ low : Word) &&& 0xFFFF0000#32 = 0x30000000#32 := by
  apply BitVec.eq_of_getLsbD_eq
  intro i hi
  interval_cases i <;> simp only [BitVec.getLsbD_and, BitVec.getLsbD_append] <;> simp

theorem writeDigit_op (pos low : Byte) :
    (0x3#4 ++ 0#12 ++ pos ++ low : Word) &&& 0xF0000000#32 = 0x30000000#32 := by
  have h := congrArg (· &&& 0xF0000000#32) (writeDigit_bits pos low)
  simpa [BitVec.and_assoc] using h

/-- The rows a host word can fit, from its operation code. -/
theorem samples_of_op {i : Instr} {w c : Word} (he : encode i = .cmd32 w) (hw : w &&& 0xF0000000#32 = c)
    (hrow : (encode i).fits (tableRow i) = true)
    (hc : ∀ j ∈ TableRow.samples, tableRow j = tableRow i ∨
      ∀ m k, tableRow j = (.cmd32 m, .cmd32 k) →
        k &&& 0xF0000000#32 = 0xF0000000#32 ∧ m &&& 0xF0000000#32 ≠ c) :
    ∀ j ∈ TableRow.samples, (encode i).fits (tableRow j) = decide (tableRow j = tableRow i) := by
  intro j hj
  rcases hc j hj with h | h
  · rw [h, hrow]
    simp
  · rcases hr : tableRow j with ⟨m | m, k | k⟩
    · obtain ⟨hk, hm⟩ := h m k hr
      have hne : (CodeWord.cmd32 m, CodeWord.cmd32 k) ≠ tableRow i := by
        intro heq
        rw [← heq, he] at hrow
        simp only [CodeWord.fits, fits_of_op_ne hw hk hm] at hrow
        cases hrow
      simp [he, CodeWord.fits, fits_of_op_ne hw hk hm, hne]
    all_goals
      have hne : tableRow i ≠ tableRow j := by
        intro heq
        rw [heq, hr, he] at hrow
        simp [CodeWord.fits] at hrow
      rw [hr] at hne
      simp [he, CodeWord.fits, hne.symm]

theorem TableRow.init (r p : BitVec 14) : TableRow.Statement (.init r p) := by
  intro _
  refine samples_of_op rfl (init_bits r p) ?_ ?_
  · simpa [encode, tableRow, CodeWord.fits] using init_bits r p
  · simp [TableRow.samples, tableRow]

theorem TableRow.request (mask : BitVec 3) : TableRow.Statement (.request mask) := by
  intro _
  revert mask
  decide

theorem TableRow.writeDigit (pos : BitVec 8) (val : BitVec 16) :
    TableRow.Statement (.writeDigit pos val) := by
  intro _
  refine samples_of_op rfl (writeDigit_op pos _) ?_ ?_
  · simpa [encode, tableRow, CodeWord.fits] using writeDigit_bits pos (val.setWidth 8)
  · simp [TableRow.samples, tableRow]

theorem TableRow.setEnabled (en : Bool) : TableRow.Statement (.setEnabled en) := by
  intro _
  revert en
  decide

theorem TableRow.setBrightness (level : BitVec 3) : TableRow.Statement (.setBrightness level) := by
  intro _
  revert level
  decide

theorem TableRow.getKeys : TableRow.Statement .getKeys := by
  intro _
  decide

theorem TableRow.wireDisplayControl (enabled : Bool) (brightness : BitVec 3) :
    TableRow.Statement (.wireDisplayControl enabled brightness) := by
  intro _
  revert enabled brightness
  decide

theorem TableRow.wireReadData : TableRow.Statement .wireReadData := by
  intro _
  decide

theorem TableRow.wireWriteData : TableRow.Statement .wireWriteData := by
  intro _
  decide

theorem TableRow.wireSetAddress (addr : BitVec 4) : TableRow.Statement (.wireSetAddress addr) := by
  intro _
  revert addr
  decide

end Sys2Proof.Laws
end

