-- ==== Sys2Proof/Laws/Runs.lean ====
section
/-! SUPPORT. Laws of runs under a schedule: what a chosen turn does, and when a schedule is fair. -/

namespace Sys2Proof.Machine

@[simp] theorem runAt_zero (sched : Nat → Turn) (s : State) : runAt sched s 0 = s := rfl

@[simp] theorem runAt_succ (sched : Nat → Turn) (s : State) (n : Nat) :
    runAt sched s (n + 1) = afterTurn (sched n) (runAt sched s n) := rfl

@[simp] theorem nextTurn_choose (t : Turn) (s : State) : nextTurn (choose t s) = t := rfl

@[simp] theorem isEnabled_choose (t u : Turn) (s : State) : isEnabled t (choose u s) = isEnabled t s := rfl

@[simp] theorem anyEnabled_choose (u : Turn) (s : State) : anyEnabled (choose u s) = anyEnabled s := rfl

theorem afterTurn_of_next {t : Turn} {s u : State} (h : step (choose t s) = .next u) :
    afterTurn t s = u := by
  simp [afterTurn, h]

/-- Where no turns are written down, a step is a turn chosen as the free one: the runs of `step` are runs
under a schedule. -/
theorem step_choose_nextTurn {s : State} (ha : s.agenda = []) (he : anyEnabled s = true) :
    step (choose (nextTurn s) s) = step s := by
  have h : consumeTurn (choose (nextTurn s) s) = consumeTurn s := by simp [consumeTurn, choose, ha]
  simp [step, advance, he, h]

/-- A turn either answers a next state or leaves the state as it is. -/
theorem afterTurn_cases (t : Turn) (s : State) :
    step (choose t s) = .next (afterTurn t s) ∨ afterTurn t s = s := by
  unfold afterTurn
  cases step (choose t s) <;> simp

/-- A property that every chosen turn keeps holds all along a run. -/
theorem runAt_of_kept {P : State → Prop} {sched : Nat → Turn} {s : State} (h0 : P s)
    (hk : ∀ n u v, P u → step (choose (sched n) u) = .next v → P v) (n : Nat) : P (runAt sched s n) := by
  induction n with
  | zero => exact h0
  | succ n ih =>
    rcases afterTurn_cases (sched n) (runAt sched s n) with h | h
    · exact hk n _ _ ih h
    · rw [runAt_succ, h]
      exact ih

/-- A schedule in which an agent's turn comes again and again is fair to it, from every state. -/
theorem weaklyFair_of_recurs {mine : Turn → Bool} {sched : Nat → Turn}
    (h : ∀ n, ∃ m, n ≤ m ∧ mine (sched m) = true) (s : State) : WeaklyFair mine sched s :=
  fun n _ => h n

/-- The alternating schedule is fair from every state. -/
theorem fair_of_alternating {sched : Nat → Turn} (ht : ∀ n, isTransportTurn (sched (2 * n)) = true)
    (hh : ∀ n, isHandlerTurn (sched (2 * n + 1)) = true) (s : State) : FairSchedule sched s :=
  ⟨weaklyFair_of_recurs (fun n => ⟨2 * n, by omega, ht n⟩) s,
    weaklyFair_of_recurs (fun n => ⟨2 * n + 1, by omega, hh n⟩) s⟩

end Sys2Proof.Machine
end

