-- ==== Sys2Proof/Tests/Slice0.lean ====
section
/-! SUPPORT. Tests of one step each, their expected results taken from the tables of
spec/95_test_vectors.md (cited by the vector's name), and for every statement with hypotheses a
state and operands that meet them together, clause by clause. -/

namespace Sys2Proof.Tests

open Sys2Proof Sys2Proof.Machine

/-! ### Small states -/

/-- The reset state with every parameter a numeral; for the spec's symbolic `b`, 3. -/
def base : State := State.resetWith ⟨defaultGlyph, 3, false, true, 0⟩

/-- As `base`, with `P_SNAPSHOT_READ_ATOMIC` false. -/
def splitBase : State := State.resetWith ⟨defaultGlyph, 3, false, false, 0⟩

/-- As `base`, with `P_INIT_REQUESTS_CONFIG` true. -/
def configBase : State := State.resetWith ⟨defaultGlyph, 3, true, true, 0⟩

/-- `CFG = {1, 3}` and a transfer under way, its byte on the bus. -/
def busy (code : BitVec 2) (st c : BitVec 5) : State :=
  { base with act := .busy code st c, cs := true, cfg := ⟨true, 3⟩, xfer := .tx 0 }

/-- The handler's turn, with an event pending. -/
def due (code : BitVec 2) (st c : BitVec 5) (r : Option Byte) : State :=
  { busy code st c with xfer := .none, evt := .done r, agenda := [.handler] }

/-- The host's turn, with one word to fetch. -/
def fetching (w : Word) : State := { base with program := [w], agenda := [.host] }

/-- Digit 0 is 8, nothing else is lit. -/
def eightAtZero : Framebuffer := ⟨1, 1, 1, 1, 1, 1, 1, 0⟩

/-- Digit 3 is 8, nothing else is lit. -/
def eightAtThree : Framebuffer := ⟨8, 8, 8, 8, 8, 8, 8, 0⟩

/-- A next state that satisfies `p`. -/
def gives (a : Answer) (p : State → Bool) : Bool :=
  match a with
  | .next t => p t
  | .fault _ => false
  | .refused _ => false

/-! ### Well-formedness -/

/-- The one check: WRITE_DIGIT's value is signed, of 8 bits; the terms just past its ends are refused. -/
theorem test_wf_refuses_wide_values :
    (Instr.writeDigit 3 200).wf = false ∧ (Instr.writeDigit 3 128).wf = false ∧
    (Instr.writeDigit 3 (-129)).wf = false := by decide

theorem test_wf_takes_ends :
    (Instr.writeDigit 3 127).wf = true ∧ (Instr.writeDigit 3 (-128)).wf = true := by decide

/-! ### Decoding: words written out bit by bit from 30_encoding.md R57 to R61, R66 to R68 -/

/-- op 0001, R = 10, P = 20. -/
theorem test_decode_init :
    decode (.cmd32 0b0001_00000000001010_00000000010100#32) = .instr (.init 10 20) := by decide

/-- op 0010, mask bits 2..0. -/
theorem test_decode_request :
    decode (.cmd32 0b0010_0000000000000000000000000_110#32) = .instr (.request 0b110) := by decide

/-- op 0011, pos 9, val -2. -/
theorem test_decode_write_digit :
    decode (.cmd32 0b0011_000000000000_00001001_11111110#32) = .instr (.writeDigit 9 (-2)) := by decide

theorem test_decode_set_enabled :
    decode (.cmd32 0b0100_000000000000000000000000000_1#32) = .instr (.setEnabled true) := by decide

theorem test_decode_set_brightness :
    decode (.cmd32 0b0101_0000000000000000000000000_110#32) = .instr (.setBrightness 6) := by decide

theorem test_decode_get_keys :
    decode (.cmd32 0b0110_0000000000000000000000000000#32) = .instr .getKeys := by decide

/-- 1000, enabled 0, brightness 5. -/
theorem test_decode_display_control :
    decode (.wire8 0b1000_0_101#8) = .instr (.wireDisplayControl false 5) := by decide

theorem test_decode_read_data : decode (.wire8 0b0100_0010#8) = .instr .wireReadData := by decide

theorem test_decode_write_data : decode (.wire8 0b0100_0000#8) = .instr .wireWriteData := by decide

theorem test_decode_set_address :
    decode (.wire8 0b1100_1111#8) = .instr (.wireSetAddress 15) := by decide

/-- 95 section 2.1, the rows marked Reserved. -/
theorem test_reserved_words :
    decode (.cmd32 0x20000008#32) = .reserved (.mustBeZero 2) ∧
    decode (.cmd32 0x3001FFFF#32) = .reserved (.mustBeZero 3) ∧
    decode (.cmd32 0x40000002#32) = .reserved (.mustBeZero 4) ∧
    decode (.cmd32 0x50000008#32) = .reserved (.mustBeZero 5) ∧
    decode (.cmd32 0x60000001#32) = .reserved (.mustBeZero 6) ∧
    decode (.cmd32 0x00000000#32) = .reserved (.opCode 0) ∧
    decode (.cmd32 0x70000000#32) = .reserved (.opCode 7) ∧
    decode (.cmd32 0xF0000000#32) = .reserved (.opCode 15) := by decide

theorem test_table_word :
    decodeTableWord 32 0x300003FF = some (.writeDigit 3 (-1)) ∧
    decodeTableWord 8 0xC5 = some (.wireSetAddress 5) ∧ decodeTableWord 32 0x70000000 = none := by decide

/-! ### One step of each instruction -/

/-- IN-1. -/
theorem test_init :
    gives (exec (.init 10 20) { base with fb := eightAtZero })
      (fun t => t.cfg == ⟨true, 3⟩ && t.fb == clearedFb && t.rescanMs == 10 && t.repaintMs == 20 &&
        t.act == .idle && t.hpc == 1) = true := by decide

/-- IN-2. -/
theorem test_init_requests_config :
    gives (exec (.init 10 20) configBase)
      (fun t => t.act == .busy 0 0 0 && t.trace == [.select, .tx 0x8B]) = true := by decide

/-- RQ-4. -/
theorem test_request_idle :
    gives (exec (.request 0b111) { base with cfg := ⟨true, 3⟩ })
      (fun t => t.act == .busy 0 0 0 && t.req == 0b110 && t.trace == [.select, .tx 0x8B]) = true := by
  decide

/-- RQ-8. -/
theorem test_request_busy :
    gives (exec (.request 0b111) (busy 1 2 1)) (fun t => t.act == .busy 1 2 1 && t.req == 0b101) =
      true := by decide

/-- WD-6, and WD-11: the decimal point is cleared. -/
theorem test_write_digit_blank_and_point :
    gives (exec (.writeDigit 3 (-2)) { base with fb := eightAtThree })
      (fun t => decodeDigit t.fb 3 == 0x00) = true ∧
    gives (exec (.writeDigit 3 7) { base with fb := { eightAtThree with dp := 8 } })
      (fun t => decodeDigit t.fb 3 == 0x07) = true := by decide

/-- WD-9's payload bytes, and WD-7: position 10 changes nothing. -/
theorem test_write_digit_payload :
    gives (exec (.writeDigit 9 15) { base with fb := eightAtThree })
      (fun t => memRead t.fb 0 16 == some [0x08, 0x02, 0x08, 0x00, 0x08, 0x00, 0x08, 0x00, 0x08, 0x02,
        0x08, 0x02, 0x08, 0x02, 0x00, 0x00]) = true ∧
    gives (exec (.writeDigit 10 7) { base with fb := eightAtThree })
      (fun t => t.fb == eightAtThree && t.hpc == 1) = true := by decide

/-- SC-1. -/
theorem test_set_enabled :
    gives (exec (.setEnabled true) { base with cfg := ⟨false, 5⟩ })
      (fun t => t.cfg == ⟨true, 5⟩ && t.trace == [.select, .tx 0x8D]) = true := by decide

/-- SC-5: dropped while a WriteConfig is in flight. -/
theorem test_set_brightness_dropped :
    gives (exec (.setBrightness 6) (busy 0 0 0))
      (fun t => t.cfg == ⟨true, 6⟩ && t.req == 0 && t.trace == []) = true := by decide

/-- GK-2. -/
theorem test_get_keys :
    gives (exec .getKeys { busy 1 3 2 with keys := 0x00100001, kstage := 0x10BBAA })
      (fun t => t.rdata == 0x00100001) = true := by decide

/-- GK-S1's third step, after the commit. -/
theorem test_get_keys_split :
    gives (exec .getKeys { splitBase with keys := 0xAABBCCDD, rdata := 0x00003344, gkPos := 2 })
      (fun t => t.rdata == 0x00BB3344 && t.hpc == 0) = true := by decide

/-- TR-1 on the display-control byte, then HS-2. -/
theorem test_wire_display_control :
    gives (exec (.wireDisplayControl true 3) { busy 0 0 0 with xfer := .tx 0x8B })
      (fun t => t.evt == .done none && t.xfer == .none && t.trace == []) = true ∧
    gives (exec (.wireDisplayControl true 3) { due 0 0 0 none with req := 0b100 })
      (fun t => t.act == .busy 2 0 0 && t.req == 0 && t.trace == [.deselect, .select, .tx 0x40]) =
      true := by decide

/-- HS-9. -/
theorem test_wire_read_data :
    gives (exec .wireReadData (due 1 0 0 (some 0x77)))
      (fun t => t.act == .busy 1 1 0 && t.rxmode && t.xfer == .rx && t.trace == [.rxOn, .rxStart]) =
      true := by decide

/-- HS-7. -/
theorem test_wire_write_data :
    gives (exec .wireWriteData { due 2 0 0 none with fb := eightAtZero })
      (fun t => t.act == .busy 2 1 1 && t.trace == [.tx 0x01]) = true := by decide

/-- R68 with R80: the set-address byte is sent as any byte is. -/
theorem test_wire_set_address :
    gives (exec (.wireSetAddress 5) { busy 2 0 0 with xfer := .tx 0xC5 })
      (fun t => t.evt == .done none && t.xfer == .none) = true := by decide

/-- A word placed by the host's interface is the one the next step runs. -/
theorem test_with_fetch_word :
    gives (step (State.reset.withFetchWord 32 0x60000000)) (fun t => t.hpc == 1) = true ∧
    gives (step (State.reset.withFetchWord 8 0x42)) (fun t => t.evt == .done none) = true := by decide

/-! ### The agents' steps, the table R78, and the contracts -/

/-- HS-5, HS-6. -/
theorem test_key_steps :
    gives (step { due 1 3 2 (some 0x56) with kstage := 0x003412 })
      (fun t => t.kstage == 0x563412 && t.act == .busy 1 4 3) = true ∧
    gives (step { due 1 4 3 (some 0x9C) with kstage := 0x563412, rxmode := true })
      (fun t => t.keys == 0x9C563412 && t.trace == [.rxOff, .deselect] && !t.rxmode) = true := by decide

/-- HF-3 and HF-5: the checks in their order. -/
theorem test_fault_order :
    gives (step (due 3 20 0 none)) (fun t => t.fault == some .badKind) = true ∧
    gives (step (due 1 5 4 (some 0))) (fun t => t.fault == some .stepOutOfRange) = true := by decide

/-- IN-6, IN-7. -/
theorem test_triggers :
    gives (step { busy 1 2 1 with rescanMs := 10, agenda := [.rescan] })
      (fun t => t.req == 0 && t.act == .busy 1 2 1) = true ∧
    gives (step { busy 1 2 1 with repaintMs := 20, agenda := [.repaint] })
      (fun t => t.req == 0b100) = true := by decide

/-- 95 section 2.10: the first repaint falls at 15, the first rescan at 10; with R = 0, at 20. -/
theorem test_cadence :
    rescanTime 0 10 1 = some 10 ∧ repaintTime 0 10 20 0 = some 15 ∧ repaintTime 0 0 20 1 = some 20 ∧
    rescanTime 0 0 1 = none := by decide

/-- R41: unused slots read as zeros; a payload address above 15 does not exist. -/
theorem test_payload_edges :
    fbByte eightAtZero 15 = some 0 ∧ fbByte eightAtZero 16 = none ∧
    memRead eightAtZero 14 3 = none := by decide

/-- A payload byte written is read back, and its neighbour is left alone. -/
theorem test_payload_write :
    (memWrite eightAtZero 1 [0xA5]).map (fun fb => (fbByte fb 1, fbByte fb 0, fbByte fb 2)) =
      some (some 0xA5, some 0x01, some 0x01) := by decide

/-- 41_transfer.md R90: the sequence of a WriteConfig is whole; a payload byte in it is not allowed. -/
theorem test_bus_framing :
    busPos [.select, .tx 0x8B, .deselect] = some .released ∧
    busPos [.select, .tx 0x8B, .tx 0x00] = none ∧
    opcodes [.select, .tx 0x40, .tx 0x8B, .deselect, .select, .tx 0x42] = [0x40, 0x42] := by decide

/-- 30_encoding.md R69, R70. -/
theorem test_assembly_text :
    assemblyText (.writeDigit 3 (-1)) = some "write_digit 3, -1" ∧
    assemblyText (.request 0b111) = some "request wc|rk|ws" := by decide

/-! ### Witnesses: states and operands that meet the hypotheses of the statements -/

theorem witness_DecodeOfEncodeIsIdentity :
    (Instr.writeDigit 255 (-128)).wf = true ∧ (Instr.init 16383 16383).wf = true := by decide

theorem witness_EncodeOfDecodeIsIdentity :
    decode (.cmd32 0x3000FF80#32) = .instr (.writeDigit 255 (-128)) ∧
    decode (.wire8 0xCF#8) = .instr (.wireSetAddress 15) := by decide

theorem witness_StepRunsHostCommand :
    TurnIs .host (fetching 0x60000000#32) ∧ (fetching 0x60000000#32).refused = false ∧
    (fetching 0x60000000#32).program[(fetching 0x60000000#32).hpc]? = some 0x60000000#32 ∧
    decode (.cmd32 0x60000000#32) = .instr .getKeys :=
  ⟨⟨rfl, rfl⟩, rfl, rfl, by decide⟩

/-- A read-data byte on the bus, at the transport's turn. -/
def sending (b : Byte) (code : BitVec 2) : State :=
  { busy code 0 0 with xfer := .tx b, agenda := [.transport 0] }

theorem witness_StepRunsWireByte :
    TurnIs (.transport 0) (sending 0x42 1) ∧ (sending 0x42 1).act = .busy 1 0 0 ∧
    (sending 0x42 1).xfer = .tx 0x42 ∧ decode (.wire8 0x42#8) = .instr .wireReadData :=
  ⟨⟨rfl, rfl⟩, rfl, rfl, by decide⟩

theorem witness_HandlerTurnTakesOpcodeStep (k : Kind) :
    HandlerTakes none (due (kindCode k) 0 0 none) ∧ (due (kindCode k) 0 0 none).xfer = .none ∧
    (due (kindCode k) 0 0 none).act = .busy (kindCode k) 0 0 :=
  ⟨⟨⟨rfl, rfl⟩, rfl⟩, rfl, rfl⟩

theorem witness_ReservedWordIsRefused_word :
    TurnIs .host (fetching 0x70000000#32) ∧ (fetching 0x70000000#32).refused = false ∧
    (fetching 0x70000000#32).program[(fetching 0x70000000#32).hpc]? = some 0x70000000#32 ∧
    decode (.cmd32 0x70000000#32) = .reserved (.opCode 7) :=
  ⟨⟨rfl, rfl⟩, rfl, rfl, by decide⟩

theorem witness_ReservedWordIsRefused_after :
    TurnIs .host { busy 2 1 1 with refused := true, agenda := [.host] } ∧ (busy 2 1 1).xfer ≠ .none ∧
    TurnIs .host { due 2 1 1 none with refused := true, agenda := [.host] } ∧
    (due 2 1 1 none).evt ≠ .none :=
  ⟨⟨rfl, rfl⟩, by decide, ⟨rfl, rfl⟩, by decide⟩

/-- The third clause: the transport's turn after a refusal, and the step without the refusal. -/
theorem witness_ReservedWordIsRefused_others :
    (let s : State := { busy 2 1 1 with refused := true, agenda := [.transport 0] };
      s.refused = true ∧ nextTurn s ≠ .host ∧ isEnabled (nextTurn s) s = true ∧
      gives (step { s with refused := false }) (fun u => u.evt == .done none) = true) := by decide

theorem witness_FaultStopsEveryAgent :
    { base with fault := some .badKind }.fault = some FaultReason.badKind := rfl

theorem witness_ResetMeetsInvariants : ResetState base := by
  refine ⟨rfl, rfl, rfl, ?_, rfl, rfl, rfl, rfl, rfl, rfl, rfl, rfl, rfl, rfl, rfl, rfl, rfl⟩
  decide

/-- HF-7's start meets R136's `Invariants`, though its step faults. -/
theorem test_invariants_admit_missing_byte :
    Invariants { due 1 2 1 none with rxmode := true } ∧
    gives (step { due 1 2 1 none with rxmode := true }) (fun t => t.fault == some .rxByteMissing) = true := by
  refine ⟨?_, by decide⟩
  constructor <;>
    simp [due, busy, base, State.resetWith, ActiveNotRequested, IdleIsQuiet, BusyIsFramed,
      RxModeTracksStep, CursorTracksStep, kindCode, kindBit]

theorem base_quiet : Quiet base := ⟨rfl, rfl, rfl, rfl, rfl, rfl⟩

theorem witness_GoodEndRests :
    Quiet base ∧ NoFault base ∧ base.hpc = base.program.length ∧ base.rescanMs = 0 ∧
    base.repaintMs = 0 :=
  ⟨base_quiet, ⟨rfl, rfl⟩, rfl, rfl, rfl⟩

theorem witness_DisabledTurnPasses :
    (let s : State := { busy 0 0 0 with agenda := [.handler] };
      anyEnabled s = true ∧ nextTurn s = .handler ∧ s.evt = .none) ∧
    (let s : State := { due 0 0 0 none with agenda := [.transport 5] };
      anyEnabled s = true ∧ nextTurn s = .transport 5 ∧ s.xfer = .none) ∧
    (let s : State := { busy 0 0 0 with agenda := [.rescan] };
      anyEnabled s = true ∧ nextTurn s = .rescan ∧ s.rescanMs = 0) ∧
    (let s : State := { busy 0 0 0 with agenda := [.repaint] };
      anyEnabled s = true ∧ nextTurn s = .repaint ∧ s.repaintMs = 0) ∧
    (let s : State := { busy 0 0 0 with agenda := [.host] };
      anyEnabled s = true ∧ nextTurn s = .host ∧ s.program.length ≤ s.hpc) ∧
    (let s : State := { fetching 0x60000000#32 with refused := true, rescanMs := 1 };
      anyEnabled s = true ∧ nextTurn s = .host ∧ s.hpc < s.program.length ∧ s.refused = true) := by
  decide

/-- For `SelectTakesLowestSetBit`, and every clause that chains or starts a kind. -/
theorem witness_HighestPriority :
    HighestPriority .wc 0b111 ∧ HighestPriority .rk 0b110 ∧ HighestPriority .ws 0b100 := by
  unfold HighestPriority
  decide

theorem witness_SelectTakesLowestSetBit :
    selectKind 0b110 = some .rk ∧ selectKind 0b100 = some .ws := by decide

theorem witness_RequestMarksAndStarts :
    (busy 2 5 5).act = .busy 2 5 5 ∧ (base.act = .idle ∧ base.req ||| 0 = 0) ∧
    (base.act = .idle ∧ HighestPriority .rk (base.req ||| 0b110)) ∧
    HighestPriority .ws ((base.req ||| 0b110) &&& ~~~(kindBit (kindCode .rk))) :=
  ⟨rfl, ⟨rfl, rfl⟩, ⟨rfl, witness_HighestPriority.2.1⟩, witness_HighestPriority.2.2⟩

theorem witness_ActiveKindIsDropped (k : Kind) :
    (busy (kindCode k) 0 0).act = .busy (kindCode k) 0 0 := rfl

theorem witness_RequestsCoalesce :
    (busy 2 5 5).act ≠ .idle ∧ ∃ t, exec (.request 0b011) (busy 2 5 5) = .next t :=
  ⟨by decide, _, rfl⟩

theorem witness_ThreeKindsRunInPriorityOrder : base.act = .idle ∧ base.req = 0 := ⟨rfl, rfl⟩

/-- The three cases of SET_ENABLED and of SET_BRIGHTNESS; the third at the two other kinds. -/
theorem witness_SetEnabledResult :
    base.act = .idle ∧ (busy 0 0 0).act = .busy (kindCode .wc) 0 0 ∧
    ((busy 1 2 1).act = .busy 1 2 1 ∧ (1 : BitVec 2) ≠ kindCode .wc) ∧
    ((busy 2 16 16).act = .busy 2 16 16 ∧ (2 : BitVec 2) ≠ kindCode .wc) := by decide

theorem witness_SetBrightnessResult :
    base.act = .idle ∧ (busy 0 0 0).act = .busy (kindCode .wc) 0 0 ∧
    ((busy 1 2 1).act = .busy 1 2 1 ∧ (1 : BitVec 2) ≠ kindCode .wc) ∧
    ((busy 2 16 16).act = .busy 2 16 16 ∧ (2 : BitVec 2) ≠ kindCode .wc) := by decide

/-- Positions and values at the ends of their ranges: 9 and 10; -1, 0, 15 and 16. -/
theorem witness_WriteDigitRendersColumn :
    9 < (10 : BitVec 8).toNat ∧ (9 : BitVec 8).toNat ≤ 9 ∧
    ¬ (0 ≤ (-1 : BitVec 16).toInt ∧ (-1 : BitVec 16).toInt ≤ 15) ∧
    (0 ≤ (0 : BitVec 16).toInt ∧ (0 : BitVec 16).toInt ≤ 15) ∧
    (0 ≤ (15 : BitVec 16).toInt ∧ (15 : BitVec 16).toInt ≤ 15) ∧
    ¬ (0 ≤ (16 : BitVec 16).toInt ∧ (16 : BitVec 16).toInt ≤ 15) ∧
    (8 ≠ (9 : BitVec 8).toNat ∧ 14 % 2 ≠ (9 : BitVec 8).toNat / 8) := by decide

theorem witness_TransposeLaw : 0 < 16 ∧ 15 < 16 := by decide

theorem witness_GetKeysReadsSnapshot : base.params.snapshotReadAtomic = true := rfl

theorem witness_GetKeysSplitStep :
    splitBase.params.snapshotReadAtomic = false ∧
    ({ splitBase with gkPos := 3 } : State).gkPos = 3 ∧ 0 < 4 ∧ 0 ≠ (3 : BitVec 2).toNat := by decide

theorem witness_GetKeysSplitMix :
    splitBase.params.snapshotReadAtomic = false ∧ splitBase.gkPos = 0 := ⟨rfl, rfl⟩

theorem witness_InitResult :
    15 < 16 ∧
    base.params.initRequestsConfig = false ∧
    (configBase.params.initRequestsConfig = true ∧ configBase.act = .idle) ∧
    ({ configBase with act := .busy 0 0 0 } : State).act = .busy (kindCode .wc) 0 0 ∧
    ({ configBase with act := .busy 2 5 5 } : State).act = .busy 2 5 5 :=
  ⟨by decide, rfl, ⟨rfl, rfl⟩, rfl, rfl⟩

theorem witness_HostCommandFrame :
    (decode (.cmd32 0x60000000#32) = .instr .getKeys ∧ ∃ t, exec .getKeys base = .next t) ∧
    (decode (.cmd32 0x30000A07#32) = .instr (.writeDigit 10 7) ∧
      9 < (10 : BitVec 8).toNat ∧ ∃ t, exec (.writeDigit 10 7) base = .next t) ∧
    (decode (.cmd32 0x20000007#32) = .instr (.request 7) ∧ ∃ t, exec (.request 7) base = .next t) :=
  ⟨⟨by decide, _, rfl⟩, ⟨by decide, by decide, _, rfl⟩, by decide, _, rfl⟩

theorem witness_WireByteOnBusIsSent :
    (encode (.wireDisplayControl true 3) = .wire8 0x8B ∧ (sending 0x8B 0).xfer = .tx 0x8B) ∧
    (encode .wireReadData = .wire8 0x42 ∧ (sending 0x42 1).xfer = .tx 0x42) ∧
    (encode .wireWriteData = .wire8 0x40 ∧ (sending 0x40 2).xfer = .tx 0x40) ∧
    (encode (.wireSetAddress 15) = .wire8 0xCF ∧ (sending 0xCF 2).xfer = .tx 0xCF) := by decide

theorem witness_DisplayControlStepFinishes :
    ((due 0 0 0 none).act = .busy (kindCode .wc) 0 0 ∧ (due 0 0 0 none).evt = .done none ∧
      (due 0 0 0 none).xfer = .none ∧ (due 0 0 0 none).req = 0) ∧
    HighestPriority .rk ({ due 0 0 0 none with req := 0b110 } : State).req :=
  ⟨⟨rfl, rfl, rfl, rfl⟩, witness_HighestPriority.2.1⟩

theorem witness_ReadDataStepSwitchesToReceive :
    (due 1 0 0 none).act = .busy (kindCode .rk) 0 0 ∧ (due 1 0 0 none).evt = .done none ∧
    (due 1 0 0 none).xfer = .none := ⟨rfl, rfl, rfl⟩

theorem witness_WriteDataStepSendsFirstByte :
    (due 2 0 0 none).act = .busy (kindCode .ws) 0 0 ∧ (due 2 0 0 none).evt = .done none ∧
    (due 2 0 0 none).xfer = .none := ⟨rfl, rfl, rfl⟩

/-- The transport's turn on each value of `XFER`. -/
def transporting (x : Xfer) : State := { busy 1 1 0 with xfer := x, agenda := [.transport 0x3C] }

theorem witness_TransportCompletes (x : Xfer) :
    TurnIs (.transport 0x3C) (transporting x) ∧ (transporting x).xfer = x := ⟨⟨rfl, rfl⟩, rfl⟩

/-- Steps 1 and 3, the ends of the range, without a byte and with one. -/
theorem witness_HandlerStagesKeyByte (r : Option Byte) :
    (HandlerTakes r (due 1 1 0 r) ∧ (due 1 1 0 r).act = .busy (kindCode .rk) 1 0 ∧
      1 ≤ (1 : BitVec 5).toNat ∧ (1 : BitVec 5).toNat ≤ 3 ∧
      (0 : BitVec 5).toNat = (1 : BitVec 5).toNat - 1) ∧
    (HandlerTakes r (due 1 3 2 r) ∧ (due 1 3 2 r).act = .busy (kindCode .rk) 3 2 ∧
      1 ≤ (3 : BitVec 5).toNat ∧ (3 : BitVec 5).toNat ≤ 3 ∧
      (2 : BitVec 5).toNat = (3 : BitVec 5).toNat - 1) :=
  ⟨⟨⟨⟨rfl, rfl⟩, rfl⟩, rfl, by decide, by decide, by decide⟩,
    ⟨⟨rfl, rfl⟩, rfl⟩, rfl, by decide, by decide, by decide⟩

theorem witness_HandlerCommitsSnapshot (r : Option Byte) :
    HandlerTakes r (due 1 4 3 r) ∧ (due 1 4 3 r).act = .busy (kindCode .rk) 4 3 ∧
    (due 1 4 3 r).req = 0 ∧ HighestPriority .ws ({ due 1 4 3 r with req := 0b100 } : State).req :=
  ⟨⟨⟨rfl, rfl⟩, rfl⟩, rfl, rfl, witness_HighestPriority.2.2⟩

/-- Steps 0 and 15, the ends of the range. -/
theorem witness_HandlerSendsPayloadByte :
    (HandlerTakes none (due 2 0 0 none) ∧ (due 2 0 0 none).act = .busy (kindCode .ws) 0 0) ∧
    (HandlerTakes none (due 2 15 15 none) ∧ (due 2 15 15 none).act = .busy (kindCode .ws) 15 15 ∧
      (15 : BitVec 5).toNat ≤ 15) :=
  ⟨⟨⟨⟨rfl, rfl⟩, rfl⟩, rfl⟩, ⟨⟨rfl, rfl⟩, rfl⟩, rfl, by decide⟩

theorem witness_HandlerStartsReceiving :
    HandlerTakes (some 0x77) (due 1 0 0 (some 0x77)) ∧
    (due 1 0 0 (some 0x77)).act = .busy (kindCode .rk) 0 0 := ⟨⟨⟨rfl, rfl⟩, rfl⟩, rfl⟩

theorem witness_HandlerFinishesCommand_wc :
    HandlerTakes none (due 0 0 0 none) ∧ (due 0 0 0 none).act = .busy (kindCode .wc) 0 0 ∧
    (due 0 0 0 none).req = 0 ∧ HighestPriority .rk ({ due 0 0 0 none with req := 0b110 } : State).req :=
  ⟨⟨⟨rfl, rfl⟩, rfl⟩, rfl, rfl, witness_HighestPriority.2.1⟩

theorem witness_HandlerFinishesCommand_ws :
    HandlerTakes none (due 2 16 16 none) ∧ (due 2 16 16 none).act = .busy (kindCode .ws) 16 16 ∧
    (due 2 16 16 none).req = 0 ∧ HighestPriority .rk ({ due 2 16 16 none with req := 0b110 } : State).req :=
  ⟨⟨⟨rfl, rfl⟩, rfl⟩, rfl, rfl, witness_HighestPriority.2.1⟩

theorem witness_HandlerFaultChecks_idle :
    HandlerTakes none { due 0 0 0 none with act := .idle } := ⟨⟨rfl, rfl⟩, rfl⟩

/-- An illegal kind; each command's first step out of range; the first and the last step that needs a
byte, without one. -/
theorem witness_HandlerFaultChecks_busy :
    HandlerTakes none (due 3 20 0 none) ∧ HandlerTakes none (due 0 1 0 none) ∧
    HandlerTakes none (due 1 5 4 none) ∧ HandlerTakes none (due 2 17 17 none) ∧
    HandlerTakes none (due 1 1 0 none) ∧ HandlerTakes none (due 1 4 3 none) :=
  ⟨⟨⟨rfl, rfl⟩, rfl⟩, ⟨⟨rfl, rfl⟩, rfl⟩, ⟨⟨rfl, rfl⟩, rfl⟩, ⟨⟨rfl, rfl⟩, rfl⟩, ⟨⟨rfl, rfl⟩, rfl⟩,
    ⟨⟨rfl, rfl⟩, rfl⟩⟩

theorem witness_HandlerFaultChecks_ranges :
    totalSteps .wc ≤ (1 : BitVec 5).toNat ∧ totalSteps .rk ≤ (5 : BitVec 5).toNat ∧
    totalSteps .ws ≤ (17 : BitVec 5).toNat ∧ 1 ≤ (1 : BitVec 5).toNat ∧ (4 : BitVec 5).toNat ≤ 4 := by
  decide

theorem witness_TriggersRequest :
    TurnIs .rescan { base with rescanMs := 1, agenda := [.rescan] } ∧
    TurnIs .repaint { base with repaintMs := 16383, agenda := [.repaint] } ∧
    (1 : BitVec 14) ≠ 0 ∧ (16383 : BitVec 14) ≠ 0 :=
  ⟨⟨rfl, rfl⟩, ⟨rfl, rfl⟩, by decide, by decide⟩

/-- The bus events of `scanning`, so far. -/
def scanningTrace : List BusEvent :=
  [.select, .tx 0x42, .rxOn, .rxStart, .rx 0x01, .rxStart, .rx 0x5A]

/-- In the middle of a ReadKeys, key byte 1 received, its handler step due. -/
def scanning : State := { due 1 2 1 (some 0x5A) with rxmode := true, trace := scanningTrace }

theorem scanning_invariants : StepInvariant scanning := by
  refine ⟨⟨?_, ?_, ?_, ?_, ?_⟩, ?_, ?_, ?_⟩ <;>
    simp [scanning, due, busy, base, State.resetWith, ActLegal, ActiveNotRequested, IdleIsQuiet,
      BusyIsFramed, RxModeTracksStep, ReceivesInRxMode, CursorTracksStep, kindCode, kindOf, totalSteps]

theorem base_invariants : StepInvariant base := by
  refine ⟨⟨?_, ?_, ?_, ?_, ?_⟩, ?_, ?_, ?_⟩ <;>
    simp [base, State.resetWith, ActLegal, ActiveNotRequested, IdleIsQuiet, BusyIsFramed,
      RxModeTracksStep, ReceivesInRxMode, CursorTracksStep]

theorem witness_StepKeepsInvariants : StepInvariant scanning ∧ ∃ t, step scanning = .next t :=
  ⟨scanning_invariants, _, rfl⟩

theorem witness_InvariantsExcludeFaults :
    (StepInvariant scanning ∧ HpcInRange scanning) ∧ (StepInvariant base ∧ HpcInRange base) :=
  ⟨⟨scanning_invariants, Nat.le_refl 0⟩, base_invariants, Nat.le_refl 0⟩

theorem witness_StepKeepsFraming :
    (StepInvariant base ∧ Framed base) ∧ StepInvariant scanning ∧ Framed scanning ∧
    ∃ t, step scanning = .next t :=
  ⟨⟨base_invariants, rfl⟩, scanning_invariants, by unfold Framed; decide, _, rfl⟩

theorem base_dark : UnusedSlotsDark base.fb := by
  intro s d _
  fin_cases s <;> simp [fbBit, plane, base, State.resetWith]

theorem witness_StepKeepsUnusedSlotsDark :
    UnusedSlotsDark (fetching 0x30000307#32).fb ∧ ∃ t, step (fetching 0x30000307#32) = .next t :=
  ⟨base_dark, _, rfl⟩

theorem witness_UnusedSlotsArePayloadZeros :
    UnusedSlotsDark base.fb ∧ 15 % 2 = 1 ∧ fbByte base.fb 15 = some 0 :=
  ⟨base_dark, by decide, by decide⟩

theorem witness_DecimalPointStaysDark :
    glyphTableOk (fetching 0x30000307#32).params.glyph = true ∧ (fetching 0x30000307#32).fb.dp = 0 ∧
    ∃ t, step (fetching 0x30000307#32) = .next t :=
  ⟨by decide, rfl, _, rfl⟩

theorem witness_SnapshotChangesOnlyAtLastKeyByte :
    gives (step { due 1 4 3 (some 0x9C) with kstage := 0x563412, rxmode := true })
      (fun t => t.keys != 0) = true := by decide

theorem witness_OnlyHostTurnWritesHostState :
    nextTurn scanning ≠ .host ∧ ∃ t, step scanning = .next t := ⟨by decide, _, rfl⟩

theorem witness_OnlyHandlerTurnWritesHandlerState :
    nextTurn (fetching 0x60000000#32) ≠ .handler ∧ ∃ t, step (fetching 0x60000000#32) = .next t :=
  ⟨by decide, _, rfl⟩

theorem witness_TransportTurnFrame :
    nextTurn (transporting .rx) = .transport 0x3C ∧ anyEnabled (transporting .rx) = true ∧
    ∃ t, step (transporting .rx) = .next t := ⟨rfl, rfl, _, rfl⟩

theorem witness_StepKeepsProgramAndParams :
    ∃ t, step (fetching 0x10028014#32) = .next t := ⟨_, rfl⟩

theorem witness_RefusalIsPermanent :
    ({ scanning with refused := true } : State).refused = true ∧
    ∃ t, step { scanning with refused := true } = .next t := ⟨rfl, _, rfl⟩

/-- A split GET_KEYS under way, the command at `HPC`. -/
def splitting : State :=
  { splitBase with program := [0x60000000#32], gkPos := 1, agenda := [.host] }

theorem witness_StepKeepsHostPosition :
    (HpcInRange splitting ∧ SplitReadHeld splitting ∧ ∃ t, step splitting = .next t) ∧
    splitting.gkPos ≠ 0 :=
  ⟨⟨Nat.zero_le 1, fun _ => ⟨rfl, rfl⟩, _, rfl⟩, by decide⟩

theorem witness_WriteConfigRunsOneEvent :
    (let s : State := { busy 0 0 0 with agenda := byteSteps 1 };
      s.fault = none ∧ s.req = 0 ∧ s.act = .busy (kindCode .wc) 0 0 ∧ s.xfer = .tx 0 ∧
      s.agenda = byteSteps 1 ++ []) := by decide

theorem witness_ReadKeysRunsFiveEvents :
    (let turns : List Turn :=
        [.transport 0, .handler, .transport 0x12, .handler, .transport 0x34, .handler,
          .transport 0x56, .handler, .transport 0x78, .handler];
      let s : State := { busy 1 0 0 with agenda := turns };
      s.fault = none ∧ s.req = 0 ∧ s.act = .busy (kindCode .rk) 0 0 ∧ s.xfer = .tx 0 ∧
      s.agenda = turns ++ []) := by decide

theorem witness_WriteSegmentsRunsWholeFrame :
    (let s : State := { busy 2 0 0 with agenda := byteSteps 17 };
      s.fault = none ∧ s.req = 0 ∧ s.act = .busy (kindCode .ws) 0 0 ∧ s.xfer = .tx 0 ∧
      s.agenda = byteSteps 17 ++ []) := by decide

/-- The transport and the handler in turn. -/
def alternating (n : Nat) : Turn := if n % 2 = 0 then .transport 0 else .handler

/-- A WriteConfig in flight, WriteSegments requested. -/
def waiting : State := { busy 0 0 0 with req := 0b100 }

theorem waiting_invariants : StepInvariant waiting := by
  refine ⟨⟨?_, ?_, ?_, ?_, ?_⟩, ?_, ?_, ?_⟩ <;>
    simp [waiting, busy, base, State.resetWith, ActLegal, ActiveNotRequested, IdleIsQuiet,
      BusyIsFramed, RxModeTracksStep, ReceivesInRxMode, CursorTracksStep, kindCode, kindOf, totalSteps,
      kindBit]

theorem alternating_fair (s : State) : FairSchedule alternating s :=
  fair_of_alternating (fun n => by simp [alternating, isTransportTurn])
    (fun n => by simp [alternating, isHandlerTurn, Nat.add_mod]) s

/-- On this run no kind above WriteSegments is ever requested. -/
theorem waiting_only_ws (n : Nat) : (runAt alternating waiting n).req &&& 0b011 = 0 := by
  refine runAt_of_kept (P := fun u => u.req &&& 0b011 = 0) rfl ?_ n
  intro n u v hu hs
  have hu' : (consumeTurn (choose (alternating n) u)).req &&& 0b011 = 0 := hu
  have hn : alternating n = .transport 0 ∨ alternating n = .handler := by
    unfold alternating
    split <;> simp
  rcases step_next_cases hs with ⟨_, rfl, _⟩ | ⟨_, ⟨_, rfl⟩ | ⟨_, h⟩⟩
  · exact hu
  · exact hu
  · rw [nextTurn_choose] at h
    rcases h with ⟨e, _⟩ | ⟨_, h⟩ | ⟨r, _, rfl⟩ | ⟨e, _⟩ | ⟨e, _⟩
    · rcases hn with hn | hn <;> rw [hn] at e <;> cases e
    · rcases handlerTurn_req h with e | ⟨k, e⟩ <;> rw [e]
      · exact hu'
      · rw [BitVec.and_assoc, BitVec.and_comm (~~~ _), ← BitVec.and_assoc, hu']
        simp
    · rw [transportComplete_req]
      exact hu'
    · rcases hn with hn | hn <;> rw [hn] at e <;> cases e
    · rcases hn with hn | hn <;> rw [hn] at e <;> cases e

/-- Both clauses: a command under way at its first step, and a requested kind with two above it. -/
theorem witness_FairRunsFinishAndStartCommands :
    StepInvariant waiting ∧ FairSchedule alternating waiting ∧
    (runAt alternating waiting 0).act = .busy (kindCode .wc) 0 0 ∧
    (runAt alternating waiting 0).req.getLsbD (kindCode .ws).toNat = true ∧
    HigherNotRerequested .ws alternating waiting 0 := by
  refine ⟨waiting_invariants, alternating_fair waiting, rfl, by decide, ?_⟩
  intro m _ j hj h
  have h0 := waiting_only_ws (m + 1)
  have none : ∀ x : BitVec 3, x &&& 0b011 = 0 → ∀ j, j < 2 → x.getLsbD j = false := by decide
  rw [none _ h0 j hj] at h
  cases h

/-- A turn of the transport: TR-1. -/
theorem test_after_turn : (afterTurn (.transport 0) (sending 0x42 1)).evt = .done none := by decide

theorem witness_CadenceCount :
    0 < 10 ∧ 0 < 20 ∧ rescanTime 0 10 1 = some 10 := by decide

end Sys2Proof.Tests
end

section
/-! PROOFS. What the handler, a host command and a step can do, each as an inductive relation whose cases
have names: the case splits of the proofs below follow them. -/

namespace Sys2Proof.Machine

/-! ### The handler's step -/

/-- What the step of a command in range leaves (41_transfer.md R83 to R88), by kind, step, cursor and the byte
that came with the event. -/
inductive HandlerMove (s : State) : Kind → BitVec 5 → BitVec 5 → Option Byte → State → Prop
  | configSent (step c : BitVec 5) (r : Option Byte) : HandlerMove s .wc step c r (finish s)
  | receiveEntered (c : BitVec 5) (r : Option Byte) : HandlerMove s .rk 0 c r (rkStepZero s)
  | keyStaged (step c : BitVec 5) (b : Byte) (first : step ≠ 0) (last : step ≠ 4) (room : c.toNat < 3) :
      HandlerMove s .rk step c (some b)
        (emit [.rxStart]
          { s with
            kstage := setByteAt s.kstage c.toNat b
            xfer := .rx
            act := .busy (kindCode .rk) (step + 1) (c + 1) })
  | keysCommitted (c : BitVec 5) (b : Byte) :
      HandlerMove s .rk 4 c (some b)
        (finish (emit [.rxOff] { s with keys := b ++ s.kstage, rxmode := false }))
  | byteMissing (step c : BitVec 5) (first : step ≠ 0) :
      HandlerMove s .rk step c none (raiseFault .rxByteMissing s)
  | payloadSent (step c : BitVec 5) (r : Option Byte) (b : Byte) (last : step ≠ 16)
      (byte : fbByte s.fb c.toNat = some b) :
      HandlerMove s .ws step c r
        (emit [.tx b] { s with xfer := .tx b, act := .busy (kindCode .ws) (step + 1) (c + 1) })
  | frameSent (c : BitVec 5) (r : Option Byte) : HandlerMove s .ws 16 c r (finish s)

theorem rkMid_move {s t : State} {step c : BitVec 5} {r : Option Byte} (first : step ≠ 0)
    (last : step ≠ 4) (h : rkMid step c r s = .next t) : HandlerMove s .rk step c r t := by
  unfold rkMid at h
  split at h
  · cases h
    exact .byteMissing step c first
  · split at h
    · cases h
      exact .keyStaged step c _ first last ‹_›
    · cases h

theorem rkFinal_move (s : State) (c : BitVec 5) (r : Option Byte) :
    HandlerMove s .rk 4 c r (rkFinal r s) := by
  cases r with
  | none => exact .byteMissing 4 c (by decide)
  | some b => exact .keysCommitted c b

theorem wsPayload_move {s t : State} {step c : BitVec 5} {r : Option Byte} (last : step ≠ 16)
    (h : wsPayload step c s = .next t) : HandlerMove s .ws step c r t := by
  unfold wsPayload at h
  split at h
  · cases h
  · cases h
    exact .payloadSent step c r _ last ‹_›

theorem handlerStep_move {s t : State} {k : Kind} {step c : BitVec 5} {r : Option Byte}
    (h : handlerStep k step c r s = .next t) : HandlerMove s k step c r t := by
  cases k <;> simp only [handlerStep] at h
  case wc =>
    cases h
    exact .configSent step c r
  case rk =>
    split_ifs at h with h0 h4
    · cases h
      subst h0
      exact .receiveEntered c r
    · cases h
      subst h4
      exact rkFinal_move s c r
    · exact rkMid_move h0 h4 h
  case ws =>
    split_ifs at h with h16
    · cases h
      subst h16
      exact .frameSent c r
    · exact wsPayload_move h16 h

theorem kindCode_inj {j k : Kind} : kindCode j = kindCode k ↔ j = k := by
  cases j <;> cases k <;> decide

/-- The checks of 41_transfer.md R82 pass: the block is busy with a kind, at a step of it. -/
def StepDue (s : State) (k : Kind) (step c : BitVec 5) : Prop :=
  s.act = .busy (kindCode k) step c ∧ step.toNat < totalSteps k

/-- `OnComplete` faults, or the active command's step is taken. -/
theorem onComplete_cases {s t : State} {r : Option Byte} (h : onComplete r s = .next t) :
    ((∃ why, t = raiseFault why s) ∧ ∀ k step c, ¬ StepDue s k step c) ∨
    ∃ k step c, StepDue s k step c ∧ HandlerMove s k step c r t := by
  unfold onComplete at h
  split at h
  next ha =>
    cases h
    exact .inl ⟨⟨_, rfl⟩, fun k step c hd => by simp [StepDue, ha] at hd⟩
  next code step c ha =>
    split at h
    next hk =>
      cases h
      refine .inl ⟨⟨_, rfl⟩, fun k step c ⟨hact, _⟩ => ?_⟩
      rw [ha] at hact
      cases hact
      simp at hk
    next k hk =>
      obtain rfl := kindOf_eq_some hk
      split at h
      next hr =>
        cases h
        refine .inl ⟨⟨_, rfl⟩, fun k step c ⟨hact, hlt⟩ => ?_⟩
        rw [ha] at hact
        injection hact with hcode hstep
        obtain rfl := kindCode_inj.1 hcode
        subst hstep
        omega
      next hr => exact .inr ⟨k, step, c, ⟨ha, by omega⟩, handlerStep_move h⟩

/-- The handler's turn takes the pending event, if there is one, to `OnComplete`. -/
theorem handlerTurn_cases {s t : State} (h : handlerTurn s = .next t) :
    (s.evt = .none ∧ t = s) ∨
    ∃ r, s.evt = .done r ∧ onComplete r { s with evt := .none } = .next t := by
  unfold handlerTurn enterHandler at h
  cases he : s.evt with
  | none =>
    simp only [he] at h
    cases h
    exact .inl ⟨rfl, rfl⟩
  | done r =>
    simp only [he] at h
    exact .inr ⟨r, rfl, h⟩

/-! ### A host command -/

/-- What a host command leaves (40_arbiter.md, 42_framebuffer.md, 43_keys_config.md, 44_init_refresh.md). -/
inductive HostMove (s : State) : Instr → State → Prop
  | initialised (r p : BitVec 14) (silent : s.params.initRequestsConfig = false) :
      HostMove s (.init r p)
        (retire
          { s with
            cfg := ⟨true, s.params.initBrightness⟩
            fb := clearedFb
            rescanMs := r
            repaintMs := p
            t0 := Config.now s.tick })
  | initialisedRequesting (r p : BitVec 14) (requests : s.params.initRequestsConfig = true) :
      HostMove s (.init r p)
        (retire (requestKinds (kindBit (kindCode .wc))
          { s with
            cfg := ⟨true, s.params.initBrightness⟩
            fb := clearedFb
            rescanMs := r
            repaintMs := p
            t0 := Config.now s.tick }))
  | requested (mask : BitVec 3) : HostMove s (.request mask) (retire (requestKinds mask s))
  | digitIgnored (pos : BitVec 8) (val : BitVec 16) (outside : 9 < pos.toNat) :
      HostMove s (.writeDigit pos val) (retire s)
  | digitWritten (pos : BitVec 8) (val : BitVec 16) (inside : pos.toNat ≤ 9) :
      HostMove s (.writeDigit pos val)
        (retire { s with fb := writeColumn s.fb pos.toNat (digitPattern s.params.glyph val) })
  | enabledSet (en : Bool) :
      HostMove s (.setEnabled en)
        (retire (requestKinds (kindBit (kindCode .wc)) { s with cfg := { s.cfg with enabled := en } }))
  | brightnessSet (level : BitVec 3) :
      HostMove s (.setBrightness level)
        (retire (requestKinds (kindBit (kindCode .wc)) { s with cfg := { s.cfg with brightness := level } }))
  | keysRead (atomic : s.params.snapshotReadAtomic = true) :
      HostMove s .getKeys (retire { s with rdata := s.keys })
  | keyByteRead (split : s.params.snapshotReadAtomic = false) (more : s.gkPos ≠ 3) :
      HostMove s .getKeys (readKeyByte s)
  | lastKeyByteRead (split : s.params.snapshotReadAtomic = false) (last : s.gkPos = 3) :
      HostMove s .getKeys (retire (readKeyByte s))

theorem execInit_move {s t : State} {r p : BitVec 14} (h : execInit r p s = .next t) :
    HostMove s (.init r p) t := by
  unfold execInit at h
  cases h
  split
  next hc => exact .initialisedRequesting r p hc
  next hc => exact .initialised r p (by simpa using hc)

theorem execWriteDigit_move {s t : State} {pos : BitVec 8} {val : BitVec 16}
    (h : execWriteDigit pos val s = .next t) : HostMove s (.writeDigit pos val) t := by
  unfold execWriteDigit at h
  cases h
  split
  next hp => exact .digitIgnored pos val hp
  next hp => exact .digitWritten pos val (by omega)

theorem execGetKeys_move {s t : State} (h : execGetKeys s = .next t) : HostMove s .getKeys t := by
  unfold execGetKeys at h
  cases h
  split_ifs with ha h3
  · exact .keysRead ha
  · exact .lastKeyByteRead (by simpa using ha) h3
  · exact .keyByteRead (by simpa using ha) h3

/-- Executing a decoded host word makes one of the moves. -/
theorem hostCommand_move {w : Word} {i : Instr} {s t : State} (hd : decodeHost w = .instr i)
    (h : exec i s = .next t) : HostMove s i t := by
  obtain ⟨r, p, rfl⟩ | ⟨m, rfl⟩ | ⟨pos, val, rfl⟩ | ⟨en, rfl⟩ | ⟨l, rfl⟩ | rfl := decodeHost_cases hd
  · exact execInit_move h
  · cases h
    exact .requested m
  · exact execWriteDigit_move h
  · cases h
    exact .enabledSet en
  · cases h
    exact .brightnessSet l
  · exact execGetKeys_move h

/-! ### A step -/

/-- What a step leaves: the two triggers are one case, each a request. -/
inductive StepMove (s : State) : State → Prop
  | rested (quiet : anyEnabled s = false) : StepMove s s
  | passed : StepMove s (consumeTurn s)
  | host {t : State} (turn : nextTurn s = .host) (heard : s.refused = false)
      (moved : hostStep (consumeTurn s) = .next t) : StepMove s t
  | handler {t : State} (turn : nextTurn s = .handler)
      (moved : handlerTurn (consumeTurn s) = .next t) : StepMove s t
  | transport (r : Byte) (turn : nextTurn s = .transport r) :
      StepMove s (transportComplete r (consumeTurn s))
  | trigger (mask : BitVec 3) (turn : nextTurn s = .rescan ∨ nextTurn s = .repaint) :
      StepMove s (requestKinds mask (consumeTurn s))

theorem step_move {s t : State} (h : step s = .next t) : StepMove s t := by
  obtain ⟨hq, rfl, -⟩ | ⟨-, ⟨-, rfl⟩ | ⟨he, hm⟩⟩ := step_next_cases h
  · exact .rested hq
  · exact .passed
  · obtain ⟨hn, hm⟩ | ⟨hn, hm⟩ | ⟨r, hn, rfl⟩ | ⟨hn, rfl⟩ | ⟨hn, rfl⟩ := hm
    · refine .host hn ?_ hm
      rw [hn] at he
      simp only [isEnabled, Bool.and_eq_true, Bool.not_eq_true'] at he
      obtain ⟨-, hr, -⟩ := he
      exact hr
    · exact .handler hn hm
    · exact .transport r hn
    · exact .trigger _ (.inl hn)
    · exact .trigger _ (.inr hn)

end Sys2Proof.Machine
end

section
/-! PROOFS. Every step keeps the invariants of 10_state.md section 6. `StepInvariant` is first said once per
value of `ACT`: quiet, or in one transfer with everything fixed by its kind and step; each operation is then
followed in that form. -/

namespace Sys2Proof.Machine

/-! ### The invariant, by the value of `ACT` -/

/-- The cursor that goes with a step (10_state.md R37). -/
def cursorAt : Kind → Nat → Nat
  | .wc, _ => 0
  | .rk, step => step - 1
  | .ws, step => step

/-- One byte operation is in flight or awaits its handler (R35), in the direction of the mode (R36). -/
def OneOperation (receiving : Bool) : Xfer → Evt → Prop
  | .tx _, .none => receiving = false
  | .none, .done none => receiving = false
  | .rx, .none => receiving = true
  | .none, .done (some _) => receiving = true
  | _, _ => False

/-- What `StepInvariant` says of a block at step `step` of a command of kind `k`. -/
structure InTransfer (k : Kind) (step c : BitVec 5) (s : State) : Prop where
  due : StepDue s k step c
  cursor : c.toNat = cursorAt k step.toNat
  notRequested : s.req &&& kindBit (kindCode k) = 0
  selected : s.cs = true
  receiving : s.rxmode = true ↔ k = .rk ∧ step ≠ 0
  operation : OneOperation s.rxmode s.xfer s.evt

theorem oneOperation_iff {s : State} :
    OneOperation s.rxmode s.xfer s.evt ↔
      (s.xfer ≠ .none ↔ s.evt = .none) ∧ (s.xfer = .rx → s.rxmode = true) ∧
      (∀ r, s.evt = .done (some r) → s.rxmode = true) ∧
      (s.rxmode = true → (∀ b, s.xfer ≠ .tx b) ∧ s.evt ≠ .done none) := by
  rcases s.xfer with _ | b | _ <;> rcases s.evt with _ | _ | r <;> cases s.rxmode <;> simp [OneOperation]

theorem ne_zero_iff_toNat {step : BitVec 5} : step ≠ 0 ↔ 1 ≤ step.toNat := by
  rw [Nat.one_le_iff_ne_zero, ne_eq, ne_eq, BitVec.toNat_eq]
  rfl

/-- R36's range of steps, for a legal step. -/
theorem receiving_iff {s : State} {k : Kind} {step c : BitVec 5} (hd : StepDue s k step c) :
    (∃ st cu, s.act = .busy (kindCode .rk) st cu ∧ 1 ≤ st.toNat ∧ st.toNat ≤ 4) ↔ k = .rk ∧ step ≠ 0 := by
  obtain ⟨hact, hlt⟩ := hd
  rw [ne_zero_iff_toNat]
  constructor
  · rintro ⟨st, cu, ha, h1, -⟩
    rw [hact] at ha
    injection ha with hc hs
    exact ⟨kindCode_inj.1 hc, hs ▸ h1⟩
  · rintro ⟨rfl, h1⟩
    have : step.toNat < 5 := hlt
    exact ⟨step, c, hact, h1, by omega⟩

/-- What is said of every busy value of `ACT` is said of the one there is. -/
theorem forall_busy_iff {s : State} {code : BitVec 2} {step c : BitVec 5} (hact : s.act = .busy code step c)
    (P : BitVec 2 → BitVec 5 → BitVec 5 → Prop) :
    (∀ co st cu, s.act = .busy co st cu → P co st cu) ↔ P code step c := by
  refine ⟨fun h => h _ _ _ hact, fun h co st cu ha => ?_⟩
  rw [hact] at ha
  cases ha
  exact h

/-- R37, for a legal step. -/
theorem cursorTracksStep_iff {s : State} {k : Kind} {step c : BitVec 5} (hd : StepDue s k step c) :
    CursorTracksStep s ↔ c.toNat = cursorAt k step.toNat := by
  obtain ⟨hact, hlt⟩ := hd
  refine (forall_busy_iff hact fun co st cu => (co = kindCode .ws → cu = st) ∧
    (co = kindCode .rk → cu.toNat = st.toNat - 1) ∧ (co = kindCode .wc → st = 0 ∧ cu = 0)).trans ?_
  simp only [kindCode_inj]
  cases k
  case wc =>
    have : step.toNat < 1 := hlt
    have hstep : step = 0 := BitVec.eq_of_toNat_eq (by simpa using this)
    simp [cursorAt, hstep, BitVec.toNat_eq]
  case rk => simp [cursorAt]
  case ws => simp [cursorAt, BitVec.toNat_eq]

theorem cursorAt_le {k : Kind} {step : Nat} (h : step < totalSteps k) : cursorAt k step ≤ 16 := by
  cases k <;> simp only [cursorAt, totalSteps] at * <;> omega

theorem InTransfer.stepInvariant {k : Kind} {step c : BitVec 5} {s : State} (h : InTransfer k step c s)
    (hf : s.fault = none) : StepInvariant s := by
  obtain ⟨hact, hlt⟩ := h.due
  obtain ⟨hone, hrx, hbyte, hrecv⟩ := oneOperation_iff.1 h.operation
  refine ⟨⟨?_, ?_, ?_, ?_, ?_⟩, ?_, hrecv, hf⟩
  · exact (forall_busy_iff hact fun co _ _ => s.req &&& kindBit co = 0).2 h.notRequested
  · intro hi
    simp [hact] at hi
  · exact fun _ => ⟨h.selected, hone⟩
  · exact ⟨h.receiving.trans (receiving_iff h.due).symm, hrx, hbyte⟩
  · exact (cursorTracksStep_iff h.due).2 h.cursor
  · refine (forall_busy_iff hact fun co st cu =>
      ∃ k, kindOf co = some k ∧ st.toNat < totalSteps k ∧ cu.toNat ≤ 16).2 ⟨k, kindOf_kindCode k, hlt, ?_⟩
    exact h.cursor ▸ cursorAt_le hlt

theorem StepInvariant.inTransfer {s : State} {k : Kind} {step c : BitVec 5} (h : StepInvariant s)
    (hact : s.act = .busy (kindCode k) step c) : InTransfer k step c s := by
  obtain ⟨j, hj, hlt, -⟩ := h.legal _ _ _ hact
  obtain rfl : k = j := kindCode_inj.1 (kindOf_eq_some hj)
  have hd : StepDue s k step c := ⟨hact, hlt⟩
  obtain ⟨hcs, hone⟩ := h.busyIsFramed (by simp [hact])
  obtain ⟨hmode, hrx, hbyte⟩ := h.rxModeTracksStep
  exact ⟨hd, (cursorTracksStep_iff hd).1 h.cursorTracksStep, h.activeNotRequested _ _ _ hact, hcs,
    hmode.trans (receiving_iff hd), oneOperation_iff.2 ⟨hone, hrx, hbyte, h.receivesInRxMode⟩⟩

theorem StepInvariant.of_quiet {s : State} (h : Quiet s) (hf : s.fault = none) : StepInvariant s := by
  obtain ⟨hact, hreq, hxfer, hevt, hcs, hrx⟩ := h
  refine ⟨⟨?_, ?_, ?_, ?_, ?_⟩, ?_, ?_, hf⟩ <;>
    simp [ActiveNotRequested, IdleIsQuiet, BusyIsFramed, RxModeTracksStep, CursorTracksStep, ActLegal,
      ReceivesInRxMode, hact, hreq, hxfer, hevt, hcs, hrx]

/-- The invariant, by the value of `ACT`. -/
theorem stepInvariant_iff {s : State} :
    StepInvariant s ↔ s.fault = none ∧ (Quiet s ∨ ∃ k step c, InTransfer k step c s) := by
  constructor
  · intro h
    refine ⟨h.noFault, ?_⟩
    cases hact : s.act with
    | idle =>
      obtain ⟨hreq, hcs, hrx, hxfer, hevt⟩ := h.idleIsQuiet hact
      exact .inl ⟨hact, hreq, hxfer, hevt, hcs, hrx⟩
    | busy code step c =>
      obtain ⟨k, hk, -, -⟩ := h.legal _ _ _ hact
      obtain rfl := kindOf_eq_some hk
      exact .inr ⟨k, step, c, h.inTransfer hact⟩
  · rintro ⟨hf, hq | ⟨k, step, c, hk⟩⟩
    · exact .of_quiet hq hf
    · exact hk.stepInvariant hf

/-- The registers the invariant speaks of are the same. -/
structure SameTransfer (s t : State) : Prop where
  req : t.req = s.req := by rfl
  act : t.act = s.act := by rfl
  cs : t.cs = s.cs := by rfl
  rxmode : t.rxmode = s.rxmode := by rfl
  xfer : t.xfer = s.xfer := by rfl
  evt : t.evt = s.evt := by rfl
  fault : t.fault = s.fault := by rfl

theorem StepInvariant.of_sameTransfer {s t : State} (h : StepInvariant s) (e : SameTransfer s t) :
    StepInvariant t := by
  obtain ⟨hreq, hact, hcs, hrx, hxfer, hevt, hf⟩ := e
  rw [stepInvariant_iff] at h ⊢
  obtain ⟨hfault, hq | ⟨k, step, c, hk⟩⟩ := h
  · refine ⟨hf.trans hfault, .inl ?_⟩
    simpa only [Quiet, hreq, hact, hcs, hrx, hxfer, hevt] using hq
  · obtain ⟨⟨hbusy, hlt⟩, hcur, hnot, hsel, hrecv, hop⟩ := hk
    refine ⟨hf.trans hfault, .inr ⟨k, step, c, ⟨hact.trans hbusy, hlt⟩, hcur, ?_, hcs.trans hsel, ?_, ?_⟩⟩
    · rwa [hreq]
    · rwa [hrx]
    · rwa [hrx, hxfer, hevt]

/-! ### The Arbiter, `Start` and `Finish` -/

/-- A started command is at its step 0, its opcode byte in flight (41_transfer.md R79). -/
theorem inTransfer_start {k : Kind} {s : State} (hrx : s.rxmode = false) (hevt : s.evt = .none) :
    InTransfer k 0 0 (start k s) where
  due := ⟨rfl, by cases k <;> decide⟩
  cursor := by cases k <;> rfl
  notRequested := by
    rw [start_req, BitVec.and_assoc, BitVec.and_comm (~~~ _), BitVec.and_not_self]
    exact BitVec.and_zero
  selected := rfl
  receiving := by simp [hrx]
  operation := by simp [OneOperation, hrx, hevt]

/-- From an idle block with nothing in flight, a dispatch leaves it quiet or starts a command. -/
theorem stepInvariant_dispatch {s : State} (hact : s.act = .idle) (hcs : s.cs = false)
    (hrx : s.rxmode = false) (hxfer : s.xfer = .none) (hevt : s.evt = .none) (hf : s.fault = none) :
    StepInvariant (dispatch s) := by
  obtain ⟨hreq, e⟩ | ⟨k, -, e⟩ := dispatch_cases s <;> rw [e]
  · exact .of_quiet ⟨hact, hreq, hxfer, hevt, hcs, hrx⟩ hf
  · exact (inTransfer_start hrx hevt).stepInvariant hf

theorem stepInvariant_finish {s : State} (hrx : s.rxmode = false) (hxfer : s.xfer = .none)
    (hevt : s.evt = .none) (hf : s.fault = none) : StepInvariant (finish s) :=
  stepInvariant_dispatch rfl rfl hrx hxfer hevt hf

/-- A request of a busy block leaves its active kind out (40_arbiter.md R74). -/
theorem notRequested_or {req mask bit : BitVec 3} (h : req &&& bit = 0) :
    (req ||| (mask &&& ~~~bit)) &&& bit = 0 := by
  apply BitVec.eq_of_getLsbD_eq
  intro i _
  have hbit : (req.getLsbD i && bit.getLsbD i) = false := by
    rw [← BitVec.getLsbD_and, h]
    exact BitVec.getLsbD_zero
  simp [Bool.and_or_distrib_right, hbit, Bool.and_assoc]

theorem StepInvariant.requestKinds {s : State} (h : StepInvariant s) (mask : BitVec 3) :
    StepInvariant (requestKinds mask s) := by
  obtain ⟨hf, ⟨hact, -, hxfer, hevt, hcs, hrx⟩ | ⟨k, step, c, hk⟩⟩ := stepInvariant_iff.1 h
  · rw [requestKinds_idle hact]
    exact stepInvariant_dispatch hact hcs hrx hxfer hevt hf
  · obtain ⟨⟨hact, hlt⟩, hcur, hnot, hsel, hrecv, hop⟩ := hk
    rw [requestKinds_busy hact]
    exact InTransfer.stepInvariant ⟨⟨hact, hlt⟩, hcur, notRequested_or hnot, hsel, hrecv, hop⟩ hf

/-! ### The agents -/

/-- The completion turns the operation in flight into its event (41_transfer.md R80). -/
theorem oneOperation_transportComplete {r : Byte} {s : State} (h : OneOperation s.rxmode s.xfer s.evt) :
    OneOperation s.rxmode (transportComplete r s).xfer (transportComplete r s).evt := by
  obtain ⟨hx, e⟩ | ⟨b, hx, e⟩ | ⟨hx, e⟩ := transportComplete_cases r s <;> rw [e]
  · exact h
  · rw [hx] at h
    cases he : s.evt <;> simp_all [OneOperation]
  · rw [hx] at h
    cases he : s.evt <;> simp_all [OneOperation]

theorem StepInvariant.transportComplete {s : State} (h : StepInvariant s) (r : Byte) :
    StepInvariant (transportComplete r s) := by
  obtain ⟨hf, ⟨hact, hreq, hxfer, hevt, hcs, hrx⟩ | ⟨k, step, c, hk⟩⟩ := stepInvariant_iff.1 h
  · have e : Machine.transportComplete r s = s := by simp [Machine.transportComplete, hxfer]
    rwa [e]
  · obtain ⟨⟨hact, hlt⟩, hcur, hnot, hsel, hrecv, hop⟩ := hk
    refine InTransfer.stepInvariant (k := k) (step := step) (c := c) ⟨⟨?_, hlt⟩, hcur, ?_, ?_, ?_, ?_⟩ ?_ <;>
      simp only [transportComplete_act, transportComplete_req, transportComplete_cs,
        transportComplete_rxmode, transportComplete_fault]
    exacts [hact, hnot, hsel, hrecv, oneOperation_transportComplete hop, hf]

/-- A pending event leaves no operation in flight, and carries a byte exactly in receive mode. -/
theorem oneOperation_done {receiving : Bool} {x : Xfer} {r : Option Byte}
    (h : OneOperation receiving x (.done r)) : x = .none ∧ receiving = r.isSome := by
  cases x <;> cases r <;> simp_all [OneOperation]

theorem toNat_add_one {step : BitVec 5} (h : step.toNat < 31) : (step + 1).toNat = step.toNat + 1 := by
  rw [BitVec.toNat_add]
  exact Nat.mod_eq_of_lt (Nat.succ_lt_succ h)

theorem toNat_ne {step : BitVec 5} {n : Nat} (hn : n < 32) (h : step ≠ BitVec.ofNat 5 n) :
    step.toNat ≠ n := fun e => h (BitVec.eq_of_toNat_eq (by simp [e, Nat.mod_eq_of_lt hn]))

/-- A step that goes on to the next byte, at a ReadKeys step after the first or in WriteSegments: step and
cursor advance together (R37). -/
theorem InTransfer.next {s t : State} {k : Kind} {step c : BitVec 5} (h : InTransfer k step c s)
    (more : step.toNat + 1 < totalSteps k) (payload : k = .rk ∧ step ≠ 0 ∨ k = .ws)
    (hact : t.act = .busy (kindCode k) (step + 1) (c + 1)) (hreq : t.req = s.req) (hcs : t.cs = s.cs)
    (hrx : t.rxmode = s.rxmode) (hop : OneOperation t.rxmode t.xfer t.evt) :
    InTransfer k (step + 1) (c + 1) t := by
  obtain ⟨-, hcur, hnot, hsel, hrecv, -⟩ := h
  have hmore : step.toNat + 1 < 18 := by cases k <;> simp only [totalSteps] at more <;> omega
  have hle : cursorAt k step.toNat ≤ 16 := cursorAt_le (by omega)
  have hs' := toNat_add_one (step := step) (by omega)
  have hc' := toNat_add_one (step := c) (by omega)
  have hnext : step + 1 ≠ 0 := ne_zero_iff_toNat.2 (by omega)
  refine ⟨⟨hact, by omega⟩, ?_, by rw [hreq, hnot], by rw [hcs, hsel], ?_, hop⟩
  · rw [hc', hs', hcur]
    obtain ⟨rfl, first⟩ | rfl := payload
    · have h1 : 1 ≤ step.toNat := ne_zero_iff_toNat.1 first
      simp only [cursorAt]
      omega
    · rfl
  · rw [hrx, hrecv]
    obtain ⟨rfl, first⟩ | rfl := payload
    · exact and_congr_right fun _ => iff_of_true first hnext
    · simp

/-- The step of the active command, taken with its event, keeps the invariant. -/
theorem InTransfer.handlerMove {s t : State} {k : Kind} {step c : BitVec 5} {r : Option Byte}
    (h : InTransfer k step c s) (hf : s.fault = none) (hevt : s.evt = .done r)
    (hm : HandlerMove { s with evt := .none } k step c r t) : StepInvariant t := by
  have ⟨⟨_, hlt⟩, _, hnot, hsel, hrecv, hop⟩ := h
  rw [hevt] at hop
  obtain ⟨hxfer, hmode⟩ := oneOperation_done hop
  cases hm with
  | configSent =>
    have hrx : s.rxmode = false := by simpa using hrecv
    exact stepInvariant_finish hrx hxfer rfl hf
  | receiveEntered =>
    exact InTransfer.stepInvariant (k := .rk) (step := 1) (c := 0)
      ⟨⟨rfl, by decide⟩, rfl, hnot, hsel, by simp, by simp [OneOperation]⟩ hf
  | keyStaged _ _ b first last =>
    have h4 : step.toNat ≠ 4 := toNat_ne (by decide) last
    have more : step.toNat + 1 < totalSteps .rk := by simp only [totalSteps] at hlt ⊢; omega
    refine InTransfer.stepInvariant (h.next more (.inl ⟨rfl, first⟩) rfl rfl rfl rfl ?_) hf
    simp [OneOperation, hmode]
  | keysCommitted => exact stepInvariant_finish rfl hxfer rfl hf
  | byteMissing _ _ first =>
    have hrx : s.rxmode = true := hrecv.2 ⟨rfl, first⟩
    simp [hmode] at hrx
  | payloadSent _ _ _ b last =>
    have h16 : step.toNat ≠ 16 := toNat_ne (by decide) last
    have more : step.toNat + 1 < totalSteps .ws := by simp only [totalSteps] at hlt ⊢; omega
    have hrx : s.rxmode = false := by simpa using hrecv
    refine InTransfer.stepInvariant (h.next more (.inr rfl) rfl rfl rfl rfl ?_) hf
    simp [OneOperation, hrx]
  | frameSent =>
    have hrx : s.rxmode = false := by simpa using hrecv
    exact stepInvariant_finish hrx hxfer rfl hf

theorem StepInvariant.handlerTurn {s t : State} (h : StepInvariant s) (ht : handlerTurn s = .next t) :
    StepInvariant t := by
  obtain ⟨-, rfl⟩ | ⟨r, hevt, ho⟩ := handlerTurn_cases ht
  · exact h
  · obtain ⟨hf, ⟨-, -, -, hnone, -, -⟩ | ⟨k, step, c, hk⟩⟩ := stepInvariant_iff.1 h
    · simp [hevt] at hnone
    · obtain ⟨-, hbad⟩ | ⟨_, _, _, ⟨hact', -⟩, hm⟩ := onComplete_cases ho
      · exact absurd hk.due (hbad k step c)
      · exact (h.inTransfer hact').handlerMove hf hevt hm

/-- A host command leaves the transfer alone, or retires a request after setting other registers. -/
theorem HostMove.transfer {s t : State} {i : Instr} (hm : HostMove s i t) :
    SameTransfer s t ∨ ∃ u mask, SameTransfer s u ∧ t = retire (Machine.requestKinds mask u) := by
  cases hm with
  | initialised => exact .inl {}
  | initialisedRequesting => exact .inr ⟨_, _, {}, rfl⟩
  | requested => exact .inr ⟨_, _, {}, rfl⟩
  | digitIgnored => exact .inl {}
  | digitWritten => exact .inl {}
  | enabledSet => exact .inr ⟨_, _, {}, rfl⟩
  | brightnessSet => exact .inr ⟨_, _, {}, rfl⟩
  | keysRead => exact .inl {}
  | keyByteRead => exact .inl {}
  | lastKeyByteRead => exact .inl {}

theorem StepInvariant.hostMove {s t : State} {i : Instr} (h : StepInvariant s) (hm : HostMove s i t) :
    StepInvariant t := by
  obtain e | ⟨u, mask, e, rfl⟩ := hm.transfer
  · exact h.of_sameTransfer e
  · exact ((h.of_sameTransfer e).requestKinds mask).of_sameTransfer {}

theorem StepInvariant.hostStep {s t : State} (h : StepInvariant s) (ht : hostStep s = .next t) :
    StepInvariant t := by
  obtain ⟨-, e⟩ | ⟨_, -, e⟩ | ⟨i, w, -, hd, e⟩ := hostStep_cases s <;> rw [e] at ht
  · cases ht
    exact h
  · cases ht
    exact h.of_sameTransfer {}
  · exact h.hostMove (hostCommand_move hd ht)

/-- Settles O43: each agent's move keeps the invariant, and using up a turn touches none of its registers. -/
theorem stepKeepsInvariants : Obligations.StepKeepsInvariants := by
  unfold Obligations.StepKeepsInvariants
  intro s t h hs
  have hturn : StepInvariant (consumeTurn s) := h.of_sameTransfer {}
  cases step_move hs with
  | rested => exact h
  | passed => exact hturn
  | host _ _ moved => exact hturn.hostStep moved
  | handler _ moved => exact hturn.handlerTurn moved
  | transport r => exact hturn.transportComplete r
  | trigger mask => exact hturn.requestKinds mask

end Sys2Proof.Machine
end

section
/-! PROOFS. Who writes which register (10_state.md R31): the frames of the host commands and of each agent's
turn, and what follows for refusal and for the host's position. -/

namespace Sys2Proof.Machine

/-! ### The frame of a host command, register group by register group -/

section
variable {s t : State} {i : Instr}

theorem HostMove.frame (h : HostMove s i t) :
    t.keys = s.keys ∧ t.kstage = s.kstage ∧ t.evt = s.evt ∧ t.rxmode = s.rxmode ∧
      t.fault = s.fault ∧ t.refused = s.refused ∧ t.program = s.program ∧ t.agenda = s.agenda ∧
      t.tick = s.tick ∧ t.params = s.params := by
  cases h <;> simp

theorem HostMove.fb_eq (h : HostMove s i t) (init : ∀ r p, i ≠ .init r p)
    (digit : ∀ pos val, i = .writeDigit pos val → 9 < pos.toNat) : t.fb = s.fb := by
  cases h with
  | initialised r p => exact absurd rfl (init r p)
  | initialisedRequesting r p => exact absurd rfl (init r p)
  | digitWritten pos val inside => exact absurd (digit pos val rfl) (by omega)
  | _ => simp

theorem HostMove.advances (h : HostMove s i t) (keys : i ≠ .getKeys) :
    t.rdata = s.rdata ∧ t.gkPos = s.gkPos ∧ t.hpc = s.hpc + 1 := by
  cases h with
  | keysRead => exact absurd rfl keys
  | keyByteRead => exact absurd rfl keys
  | lastKeyByteRead => exact absurd rfl keys
  | _ => simp

theorem HostMove.cadence_eq (h : HostMove s i t) (init : ∀ r p, i ≠ .init r p) :
    t.rescanMs = s.rescanMs ∧ t.repaintMs = s.repaintMs ∧ t.t0 = s.t0 := by
  cases h with
  | initialised r p => exact absurd rfl (init r p)
  | initialisedRequesting r p => exact absurd rfl (init r p)
  | _ => simp

theorem HostMove.cfg_eq (h : HostMove s i t) (init : ∀ r p, i ≠ .init r p)
    (enabled : ∀ en, i ≠ .setEnabled en) (brightness : ∀ l, i ≠ .setBrightness l) : t.cfg = s.cfg := by
  cases h with
  | initialised r p => exact absurd rfl (init r p)
  | initialisedRequesting r p => exact absurd rfl (init r p)
  | enabledSet en => exact absurd rfl (enabled en)
  | brightnessSet l => exact absurd rfl (brightness l)
  | _ => simp

theorem HostMove.transfer_eq (h : HostMove s i t)
    (quiet : (∃ pos val, i = .writeDigit pos val) ∨ i = .getKeys) :
    t.req = s.req ∧ t.act = s.act ∧ t.cs = s.cs ∧ t.xfer = s.xfer ∧ t.trace = s.trace := by
  obtain ⟨pos, val, rfl⟩ | rfl := quiet <;> cases h <;> simp

end

/-- Settles O30: one frame lemma per group of registers, each by the moves of a host command. -/
theorem hostCommandFrame : Obligations.HostCommandFrame := by
  unfold Obligations.HostCommandFrame
  intro w i s t hd h
  have hm : HostMove s i t := hostCommand_move hd h
  exact ⟨hm.frame, fun init digit => ⟨hm.fb_eq init digit, fun a => by rw [hm.fb_eq init digit]⟩, hm.advances,
    hm.cadence_eq, hm.cfg_eq, hm.transfer_eq⟩

/-! ### The snapshot -/

/-- `KEYS` is written by the commit of ReadKeys step 4 and by no other handler step. -/
theorem HandlerMove.keys_cases {s t : State} {k : Kind} {step c : BitVec 5} {r : Option Byte}
    (h : HandlerMove s k step c r t) :
    t.keys = s.keys ∨ k = .rk ∧ step = 4 ∧ ∃ b, r = some b ∧ t.keys = b ++ s.kstage := by
  cases h with
  | keysCommitted c b => exact .inr ⟨rfl, rfl, b, rfl, by simp⟩
  | _ => exact .inl (by simp)

theorem handlerTurn_keys {s t : State} (h : handlerTurn s = .next t) (hk : t.keys ≠ s.keys) :
    ∃ c b, s.act = .busy (kindCode .rk) 4 c ∧ s.evt = .done (some b) ∧ t.keys = b ++ s.kstage := by
  obtain ⟨-, rfl⟩ | ⟨r, hevt, ho⟩ := handlerTurn_cases h
  · exact absurd rfl hk
  · obtain ⟨⟨why, rfl⟩, -⟩ | ⟨k, step, c, ⟨hact, -⟩, hm⟩ := onComplete_cases ho
    · exact absurd rfl hk
    · obtain e | ⟨rfl, rfl, b, rfl, e⟩ := hm.keys_cases
      · exact absurd e hk
      · exact ⟨c, b, hact, hevt, e⟩

/-! ### The frame of each agent's turn -/

/-- What the host's turn alone writes (10_state.md R31, R27, R28) is the same, and so are the program and the
parameters it reads. -/
structure SameHostSide (s t : State) : Prop where
  cfg : t.cfg = s.cfg
  fb : t.fb = s.fb
  rdata : t.rdata = s.rdata
  rescanMs : t.rescanMs = s.rescanMs
  repaintMs : t.repaintMs = s.repaintMs
  t0 : t.t0 = s.t0
  gkPos : t.gkPos = s.gkPos
  hpc : t.hpc = s.hpc
  refused : t.refused = s.refused
  program : t.program = s.program
  params : t.params = s.params

/-- A step in which the host does not act, by the turn or because it is refused, leaves its side alone. -/
theorem step_sameHostSide {s t : State} (h : step s = .next t)
    (silent : nextTurn s = .host → s.refused = true) :
    SameHostSide s t := by
  cases step_move h with
  | rested => constructor <;> rfl
  | passed => constructor <;> rfl
  | host turn heard => simp [silent turn] at heard
  | handler _ moved =>
    obtain ⟨hcfg, hfb, hrdata, hrescan, hrepaint, ht0, hgk, hhpc, href, hprog, -, -, hpar⟩ :=
      handlerTurn_frame moved
    exact ⟨hcfg, hfb, hrdata, hrescan, hrepaint, ht0, hgk, hhpc, href, hprog, hpar⟩
  | transport r => constructor <;> simp
  | trigger mask => constructor <;> simp

/-- Settles O49: no agent but the handler writes `KEYS`, and of its steps only the last of ReadKeys. -/
theorem snapshotChangesOnlyAtLastKeyByte : Obligations.SnapshotChangesOnlyAtLastKeyByte := by
  unfold Obligations.SnapshotChangesOnlyAtLastKeyByte
  intro s t h hk
  cases step_move h with
  | rested => exact absurd rfl hk
  | passed => exact absurd rfl hk
  | host _ _ moved =>
    obtain ⟨hkeys, -⟩ := hostStep_frame moved
    exact absurd hkeys hk
  | handler turn moved =>
    have last := handlerTurn_keys moved hk
    exact ⟨turn, last⟩
  | transport r => simp at hk
  | trigger mask => simp at hk

/-- Settles O50: `step_sameHostSide`, on a turn of another agent. -/
theorem onlyHostTurnWritesHostState : Obligations.OnlyHostTurnWritesHostState := by
  unfold Obligations.OnlyHostTurnWritesHostState
  intro s t h hn
  have e : SameHostSide s t := step_sameHostSide h fun turn => absurd turn hn
  exact ⟨e.cfg, e.fb, e.rdata, e.rescanMs, e.repaintMs, e.t0, e.gkPos, e.hpc, e.refused⟩

/-- Settles O51: the frames of the host's step, of the transport's completion and of a request. -/
theorem onlyHandlerTurnWritesHandlerState : Obligations.OnlyHandlerTurnWritesHandlerState := by
  unfold Obligations.OnlyHandlerTurnWritesHandlerState
  intro s t h hn
  cases step_move h with
  | rested => exact ⟨rfl, rfl, rfl, rfl⟩
  | passed => exact ⟨rfl, rfl, rfl, rfl⟩
  | host _ _ moved =>
    obtain ⟨hkeys, hkstage, -, hrxmode, hfault, -⟩ := hostStep_frame moved
    exact ⟨hkeys, hkstage, hrxmode, hfault⟩
  | handler turn => exact absurd turn hn
  | transport r => simp
  | trigger mask => simp

/-- The completion, as an equation of whole states. -/
theorem transportComplete_frame (r : Byte) (s : State) :
    transportComplete r s =
      { s with
        xfer := (transportComplete r s).xfer
        evt := (transportComplete r s).evt
        trace := (transportComplete r s).trace } := by
  obtain ⟨-, e⟩ | ⟨b, -, e⟩ | ⟨-, e⟩ := transportComplete_cases r s <;> rw [e]

/-- Settles O52: on the transport's turn the step is its completion or passes. -/
theorem transportTurnFrame : Obligations.TransportTurnFrame := by
  unfold Obligations.TransportTurnFrame
  intro s t r hn he h
  cases step_move h with
  | rested quiet => simp [quiet] at he
  | passed => rfl
  | host turn => simp [turn] at hn
  | handler turn => simp [turn] at hn
  | transport r' => exact transportComplete_frame r' (consumeTurn s)
  | trigger _ turn => simp [hn] at turn

/-- Settles O54: a refused host never acts, so its side stays whatever the turn. -/
theorem refusalIsPermanent : Obligations.RefusalIsPermanent := by
  unfold Obligations.RefusalIsPermanent
  intro s t hr h
  have e : SameHostSide s t := step_sameHostSide h fun _ => hr
  exact ⟨e.refused.trans hr, e.hpc, e.cfg, e.fb, e.rdata⟩

/-! ### The host's position -/

/-- The position in the program and in a split read, as O55 holds it. -/
def HostPositioned (s : State) : Prop := HpcInRange s ∧ SplitReadHeld s

theorem HostPositioned.of_same {s t : State} (h : HostPositioned s) (hhpc : t.hpc = s.hpc)
    (hgk : t.gkPos = s.gkPos) (hprog : t.program = s.program) (hpar : t.params = s.params) :
    HostPositioned t := by
  simpa only [HostPositioned, HpcInRange, SplitReadHeld, fetchHost, hhpc, hgk, hprog, hpar] using h

/-- With no split read under way, only `HPC` matters. -/
theorem HostPositioned.of_whole {s : State} (hhpc : s.hpc ≤ s.program.length) (hgk : s.gkPos = 0) :
    HostPositioned s := ⟨hhpc, fun h => absurd hgk h⟩

/-- GET_KEYS at `HPC` holds the position while its split read is under way, and advances past itself when the
read is over. -/
theorem hostPositioned_getKeys {s t : State} (hf : fetchHost s = some (.instr .getKeys))
    (hlt : s.hpc < s.program.length) (held : SplitReadHeld s) (hm : HostMove s .getKeys t) :
    HostPositioned t := by
  cases hm with
  | keysRead atomic =>
    refine .of_whole hlt (by_contra fun hgk => ?_)
    obtain ⟨split, -⟩ := held hgk
    simp [atomic] at split
  | keyByteRead split => exact ⟨hlt.le, fun _ => ⟨split, hf⟩⟩
  | lastKeyByteRead _ last => exact .of_whole hlt (by simp [last])

theorem hostPositioned_hostStep {s t : State} (h : HostPositioned s) (ht : hostStep s = .next t) :
    HostPositioned t := by
  obtain ⟨-, e⟩ | ⟨_, -, e⟩ | ⟨i, w, hw, hd, e⟩ := hostStep_cases s <;> rw [e] at ht
  · cases ht
    exact h
  · cases ht
    exact h.of_same rfl rfl rfl rfl
  · have hf : fetchHost s = some (.instr i) := by simp [fetchHost, hw, hd]
    obtain ⟨hlt, -⟩ := List.getElem?_eq_some_iff.1 hw
    obtain ⟨-, held⟩ := h
    have hm := hostCommand_move hd ht
    by_cases hi : i = .getKeys
    · subst hi
      exact hostPositioned_getKeys hf hlt held hm
    · obtain ⟨-, hgk, hhpc⟩ := hm.advances hi
      obtain ⟨-, -, -, -, -, -, hprog, -⟩ := hm.frame
      refine .of_whole (by rw [hhpc, hprog]; exact hlt) (hgk.trans (by_contra fun hne => ?_))
      obtain ⟨-, hkeys⟩ := held hne
      rw [hf] at hkeys
      cases hkeys
      exact hi rfl

/-- Settles O55: the host's step moves its position by the rule of its command, and no other agent moves it. -/
theorem stepKeepsHostPosition : Obligations.StepKeepsHostPosition := by
  unfold Obligations.StepKeepsHostPosition
  intro s t hpc held h
  have hs : HostPositioned s := ⟨hpc, held⟩
  by_cases hn : nextTurn s = .host
  · cases step_move h with
    | rested => exact hs
    | passed => exact hs
    | host _ _ moved =>
      have hturn : HostPositioned (consumeTurn s) := hs.of_same rfl rfl rfl rfl
      exact hostPositioned_hostStep hturn moved
    | handler turn => simp [turn] at hn
    | transport _ turn => simp [turn] at hn
    | trigger _ turn => simp [hn] at turn
  · have e : SameHostSide s t := step_sameHostSide h fun turn => absurd turn hn
    exact hs.of_same e.hpc e.gkPos e.program e.params

end Sys2Proof.Machine
end

section
/-! PROOFS. Memory (20_memory.md): what a turn runs and when it passes (R47), what a step can leave in the
framebuffer, and the read-only program and parameters (R52). -/

namespace Sys2Proof.Machine

/-! ### Turns taken and turns passed -/

/-- Using up a turn enables no agent and disables none. -/
@[simp] theorem isEnabled_consumeTurn (t : Turn) (s : State) : isEnabled t (consumeTurn s) = isEnabled t s := rfl

theorem isEnabled_host_iff {s : State} :
    isEnabled .host s = true ↔ s.fault = none ∧ s.refused = false ∧ s.hpc < s.program.length := by
  simp [isEnabled]

/-- The host's turn, within its program and not refused. -/
theorem step_host {s : State} (hn : nextTurn s = .host) (he : isEnabled .host s = true) :
    step s = hostStep (consumeTurn s) := by
  rw [step_of_turn hn he]
  simp [takeTurn, he]

theorem hostStep_of_fetch {s : State} {i : Instr} (h : fetchHost s = some (.instr i)) :
    hostStep s = exec i s := by
  simp [hostStep, h]

theorem step_of_disabled {s : State} {t : Turn} (ha : anyEnabled s = true) (hn : nextTurn s = t)
    (hd : isEnabled t s = false) : step s = .next (consumeTurn s) := by
  simp [step, advance, ha, hn, takeTurn, hd]

/-- Settles O8: a word at `HPC` enables the host, and its step executes what the word decodes to. -/
theorem stepRunsHostCommand : Obligations.StepRunsHostCommand := by
  unfold Obligations.StepRunsHostCommand
  intro s w i ⟨hf, hn⟩ hr hw hd
  obtain ⟨hlt, -⟩ := List.getElem?_eq_some_iff.1 hw
  have fetched : fetchHost (consumeTurn s) = some (.instr i) := by
    simpa [fetchHost, hw, decode] using hd
  rw [step_host hn (isEnabled_host_iff.2 ⟨hf, hr, hlt⟩)]
  exact hostStep_of_fetch fetched

/-- Settles O14: in each clause the agent of the turn is disabled, by the register its enabling reads. -/
theorem disabledTurnPasses : Obligations.DisabledTurnPasses := by
  unfold Obligations.DisabledTurnPasses
  intro s ha
  refine ⟨fun hn he => ?_, fun r hn hx => ?_, fun hn hz => ?_, fun hn hz => ?_, fun hn hend => ?_⟩ <;>
    apply step_of_disabled ha hn
  · simp [isEnabled, isPending, he]
  · simp [isEnabled, isTransferring, hx]
  · simp [isEnabled, hz]
  · simp [isEnabled, hz]
  · rw [Bool.eq_false_iff, Ne, isEnabled_host_iff]
    rintro ⟨-, hr, hlt⟩
    obtain hle | href := hend
    · omega
    · simp [hr] at href

/-! ### The program and the parameters -/

/-- A step is the host's, or leaves the host's side alone. -/
theorem step_host_or_same {s t : State} (h : step s = .next t) :
    hostStep (consumeTurn s) = .next t ∨ SameHostSide s t := by
  cases step_move h with
  | rested => exact .inr (by constructor <;> rfl)
  | passed => exact .inr (by constructor <;> rfl)
  | host _ _ moved => exact .inl moved
  | handler turn => exact .inr (step_sameHostSide h (by simp [turn]))
  | transport r turn => exact .inr (step_sameHostSide h (by simp [turn]))
  | trigger mask turn => exact .inr (step_sameHostSide h fun hn => by simp [hn] at turn)

/-- Settles O53: the host only reads its program and the parameters, and they are of the side that no other
agent writes. -/
theorem stepKeepsProgramAndParams : Obligations.StepKeepsProgramAndParams := by
  unfold Obligations.StepKeepsProgramAndParams
  intro s t h
  obtain moved | same := step_host_or_same h
  · obtain ⟨-, -, -, -, -, hprog, -, -, hpar⟩ := hostStep_frame moved
    exact ⟨hprog, hpar⟩
  · exact ⟨same.program, same.params⟩

/-! ### What a step can leave in the framebuffer -/

/-- The framebuffer is kept, cleared by INIT (44_init_refresh.md R102), or has one of the columns 0..9 written
by WRITE_DIGIT (42_framebuffer.md R94). -/
inductive FbMove (glyph : Vector Byte 16) (fb : Framebuffer) : Framebuffer → Prop
  | kept : FbMove glyph fb fb
  | cleared : FbMove glyph fb clearedFb
  | digitWritten (pos : BitVec 8) (val : BitVec 16) (inside : pos.toNat ≤ 9) :
      FbMove glyph fb (writeColumn fb pos.toNat (digitPattern glyph val))

theorem HostMove.fbMove {s t : State} {i : Instr} (h : HostMove s i t) : FbMove s.params.glyph s.fb t.fb := by
  cases h with
  | initialised => exact .cleared
  | initialisedRequesting => simpa using FbMove.cleared
  | digitWritten pos val inside => exact .digitWritten pos val inside
  | _ => simpa using FbMove.kept

theorem hostStep_fbMove {s t : State} (h : hostStep s = .next t) : FbMove s.params.glyph s.fb t.fb := by
  obtain ⟨-, e⟩ | ⟨_, -, e⟩ | ⟨i, w, -, hd, e⟩ := hostStep_cases s <;> rw [e] at h
  · cases h
    exact .kept
  · cases h
    exact .kept
  · exact (hostCommand_move hd h).fbMove

theorem step_fbMove {s t : State} (h : step s = .next t) : FbMove s.params.glyph s.fb t.fb := by
  obtain moved | same := step_host_or_same h
  · simpa using hostStep_fbMove moved
  · rw [same.fb]
    exact .kept

/-! ### The unused digit slots (20_memory.md R41) -/

theorem unusedSlotsDark_clearedFb : UnusedSlotsDark clearedFb := fun s d _ => fbBit_clearedFb s d

/-- A column within the digits in use is none of the slots 10..15. -/
theorem UnusedSlotsDark.writeColumn {fb : Framebuffer} (h : UnusedSlotsDark fb) {d : Nat} (hd : d ≤ 9)
    (g : Byte) : UnusedSlotsDark (Machine.writeColumn fb d g) := by
  intro s e he
  by_cases h16 : e < 16
  · rw [fbBit_writeColumn fb d e g s h16, if_neg (by omega), h s e he]
  · exact fbBit_out_of_range _ s e (by omega)

theorem UnusedSlotsDark.fbMove {glyph : Vector Byte 16} {fb fb' : Framebuffer} (h : UnusedSlotsDark fb)
    (hm : FbMove glyph fb fb') : UnusedSlotsDark fb' := by
  cases hm with
  | kept => exact h
  | cleared => exact unusedSlotsDark_clearedFb
  | digitWritten pos val inside => exact h.writeColumn inside _

/-- Settles O46: of the moves of the framebuffer, INIT's leaves every slot dark and WRITE_DIGIT's reaches
slots 0..9 only. -/
theorem stepKeepsUnusedSlotsDark : Obligations.StepKeepsUnusedSlotsDark := by
  unfold Obligations.StepKeepsUnusedSlotsDark
  intro s t dark h
  exact dark.fbMove (step_fbMove h)

/-- Bit `k` of an odd payload byte is a bit of the plane's digit slot `8 + k` (20_memory.md R39). -/
theorem getLsbD_fbByte_odd {fb : Framebuffer} {i : Nat} {b : Byte} (hi : i % 2 = 1)
    (hb : fbByte fb i = some b) : ∃ s : Fin 8, ∀ k < 8, b.getLsbD k = fbBit fb s (8 + k) := by
  unfold fbByte at hb
  split at hb
  next hs =>
    cases hb
    refine ⟨⟨i / 2, hs⟩, fun k hk => ?_⟩
    simp [byteAt, fbBit, hi, hk]
  next => cases hb

/-- The mask 0xFC takes the bits from 2 up. -/
theorem and_0xFC_eq_zero {b : Byte} (h : ∀ k < 8, 2 ≤ k → b.getLsbD k = false) : b &&& 0xFC#8 = 0 := by
  have mask : ∀ k < 8, (0xFC#8).getLsbD k = decide (2 ≤ k) := by decide
  apply BitVec.eq_of_getLsbD_eq
  intro k hk
  by_cases h2 : 2 ≤ k
  · simp [h k hk h2]
  · simp [mask k hk, h2]

/-- Settles O47: bits 2..7 of an odd payload byte are the digit slots 10..15 of a plane. -/
theorem unusedSlotsArePayloadZeros : Obligations.UnusedSlotsArePayloadZeros := by
  unfold Obligations.UnusedSlotsArePayloadZeros
  intro fb i b dark hi hb
  obtain ⟨s, bits⟩ := getLsbD_fbByte_odd hi hb
  refine and_0xFC_eq_zero fun k hk h2 => ?_
  calc b.getLsbD k = fbBit fb s (8 + k) := bits k hk
    _ = false := dark s (8 + k) (by omega)

end Sys2Proof.Machine
end

section
/-! PROOFS. The encoding (30_encoding.md): what the decoder answers for each operation code, and that a word
is the append of the fields the decoder reads. -/

namespace Sys2Proof

/-! ### What the decoder answers for each operation code -/

section
variable {w : Word}

theorem decodeHost_init (op : field w 28 4 = 0x1#4) :
    decodeHost w = .instr (.init (field w 14 14) (field w 0 14)) := by
  simp [decodeHost, op]

theorem decodeHost_request (op : field w 28 4 = 0x2#4) :
    decodeHost w =
      if field w 3 25 = 0 then .instr (.request (field w 0 3)) else .reserved (.mustBeZero 0x2#4) := by
  simp [decodeHost, op]

theorem decodeHost_writeDigit (op : field w 28 4 = 0x3#4) :
    decodeHost w =
      if field w 16 12 = 0 then .instr (.writeDigit (field w 8 8) ((field w 0 8).signExtend 16))
      else .reserved (.mustBeZero 0x3#4) := by
  simp [decodeHost, op]

theorem decodeHost_setEnabled (op : field w 28 4 = 0x4#4) :
    decodeHost w =
      if field w 1 27 = 0 then .instr (.setEnabled (w.getLsbD 0)) else .reserved (.mustBeZero 0x4#4) := by
  simp [decodeHost, op]

theorem decodeHost_setBrightness (op : field w 28 4 = 0x5#4) :
    decodeHost w =
      if field w 3 25 = 0 then .instr (.setBrightness (field w 0 3))
      else .reserved (.mustBeZero 0x5#4) := by
  simp [decodeHost, op]

theorem decodeHost_getKeys (op : field w 28 4 = 0x6#4) :
    decodeHost w = if field w 0 28 = 0 then .instr .getKeys else .reserved (.mustBeZero 0x6#4) := by
  simp [decodeHost, op]

/-- 30_encoding.md R63 (a). -/
theorem decodeHost_reserved (op : (field w 28 4).toNat = 0 ∨ 7 ≤ (field w 28 4).toNat) :
    decodeHost w = .reserved (.opCode (field w 28 4)) := by
  unfold decodeHost
  generalize field w 28 4 = o at op
  have other : ∀ n : Nat, 1 ≤ n → n ≤ 6 → o ≠ BitVec.ofNat 4 n := by
    rintro n h1 h6 rfl
    rw [BitVec.toNat_ofNat] at op
    omega
  simp [other 1, other 2, other 3, other 4, other 5, other 6]

end

/-- The operation codes: one for each host row, and the reserved ones. -/
theorem opCode_cases (op : BitVec 4) :
    op = 0x1#4 ∨ op = 0x2#4 ∨ op = 0x3#4 ∨ op = 0x4#4 ∨ op = 0x5#4 ∨ op = 0x6#4 ∨
      (op.toNat = 0 ∨ 7 ≤ op.toNat) := by
  revert op
  decide

/-- A word of a row with a must-be-zero field is an instruction just where the field is zero. -/
theorem instr_of_zero_iff {c : Prop} [Decidable c] {i j : Instr} {r : Reserved} :
    (if c then Decoded.instr i else .reserved r) = .instr j ↔ c ∧ i = j := by
  split <;> simp [*]

theorem reserved_of_nonzero_iff {c : Prop} [Decidable c] {i : Instr} {r : Reserved} :
    (∃ why, (if c then Decoded.instr i else .reserved r) = .reserved why) ↔ ¬ c := by
  split <;> simp [*]

/-- Settles O3: row by row, a word is reserved where the row's must-be-zero field is not zero. -/
theorem hostWordsReservedExactly : Obligations.HostWordsReservedExactly := by
  unfold Obligations.HostWordsReservedExactly
  intro w
  rw [decode]
  obtain op | op | op | op | op | op | op := opCode_cases (field w 28 4)
  · simp [decodeHost_init op, op]
  · simp [decodeHost_request op, reserved_of_nonzero_iff, op]
  · simp [decodeHost_writeDigit op, reserved_of_nonzero_iff, op]
  · simp [decodeHost_setEnabled op, reserved_of_nonzero_iff, op]
  · simp [decodeHost_setBrightness op, reserved_of_nonzero_iff, op]
  · simp [decodeHost_getKeys op, reserved_of_nonzero_iff, op]
  · simp only [decodeHost_reserved op]
    obtain zero | high := op
    · simp [zero]
    · simp [high]

/-! ### A word is the append of its fields -/

section
variable {m n k : Nat}

theorem field_append_right (a : BitVec m) (c : BitVec k) : field (a ++ c) 0 k = c := by
  rw [field_append_low _ _ _ _ (by omega), field_self]

theorem field_append_middle (a : BitVec m) (b : BitVec n) (c : BitVec k) :
    field (a ++ b ++ c) k n = b := by
  rw [field_append_high _ _ _ _ le_rfl, Nat.sub_self, field_append_right]

theorem field_append_left (a : BitVec m) (b : BitVec n) (c : BitVec k) :
    field (a ++ b ++ c) (n + k) m = a := by
  rw [field_append_high _ _ _ _ (by omega), Nat.add_sub_cancel, field_append_high _ _ _ _ le_rfl,
    Nat.sub_self, field_self]

/-- Read back: a vector whose fields are `a`, `b` and `c` is their append. -/
theorem append_of_fields {v : BitVec (m + n + k)} {a : BitVec m} {b : BitVec n} {c : BitVec k}
    (left : field v (k + n) m = a) (middle : field v k n = b) (right : field v 0 k = c) :
    a ++ b ++ c = v := by
  have high : field v k (m + n) = a ++ b := by rw [← left, ← middle, field_adjacent]
  have whole := field_adjacent v 0 (m + n) k
  rwa [Nat.zero_add, high, right, field_self] at whole

end

theorem field_one {n : Nat} (v : BitVec n) (lo : Nat) : field v lo 1 = BitVec.ofBool (v.getLsbD lo) := by
  apply BitVec.eq_of_getLsbD_eq
  intro i hi
  obtain rfl : i = 0 := by omega
  simp [field]

theorem setWidth_signExtend_byte (b : Byte) : (b.signExtend 16).setWidth 8 = b := by
  apply BitVec.eq_of_getLsbD_eq
  intro i hi
  have low : i < 16 := by omega
  simp only [BitVec.getLsbD_setWidth, BitVec.getLsbD_signExtend, hi, low]
  simp

/-- A host word that decodes is the word its instruction encodes to, and the instruction is well-formed. -/
theorem encode_of_decodeHost {w : Word} {i : Instr} (h : decodeHost w = .instr i) :
    i.wf = true ∧ encode i = .cmd32 w := by
  obtain op | op | op | op | op | op | op := opCode_cases (field w 28 4)
  · rw [decodeHost_init op] at h
    cases h
    exact ⟨rfl, congrArg CodeWord.cmd32 (append_of_fields op rfl rfl)⟩
  · obtain ⟨zero, rfl⟩ := instr_of_zero_iff.1 ((decodeHost_request op).symm.trans h)
    exact ⟨rfl, congrArg CodeWord.cmd32 (append_of_fields op zero rfl)⟩
  · obtain ⟨zero, rfl⟩ := instr_of_zero_iff.1 ((decodeHost_writeDigit op).symm.trans h)
    have high : field w 16 16 = 0x3#4 ++ 0#12 := by simpa [op, zero] using (field_adjacent w 16 4 12).symm
    have low : field w 0 8 = ((field w 0 8).signExtend 16).setWidth 8 := (setWidth_signExtend_byte _).symm
    exact ⟨digitValueFits_signExtend _, congrArg CodeWord.cmd32 (append_of_fields high rfl low)⟩
  · obtain ⟨zero, rfl⟩ := instr_of_zero_iff.1 ((decodeHost_setEnabled op).symm.trans h)
    exact ⟨rfl, congrArg CodeWord.cmd32 (append_of_fields op zero (field_one w 0))⟩
  · obtain ⟨zero, rfl⟩ := instr_of_zero_iff.1 ((decodeHost_setBrightness op).symm.trans h)
    exact ⟨rfl, congrArg CodeWord.cmd32 (append_of_fields op zero rfl)⟩
  · obtain ⟨zero, rfl⟩ := instr_of_zero_iff.1 ((decodeHost_getKeys op).symm.trans h)
    have whole : 0x6#4 ++ 0#28 = w := by simpa [op, zero] using field_adjacent w 0 4 28
    exact ⟨rfl, congrArg CodeWord.cmd32 whole⟩
  · rw [decodeHost_reserved op] at h
    cases h

/-- Only WRITE_DIGIT, a host row, carries a value that a term can hold and a word cannot. -/
theorem wf_of_encode_wire {b : Byte} {i : Instr} (h : encode i = .wire8 b) : i.wf = true := by
  cases i with
  | writeDigit pos val => cases h
  | _ => rfl

/-- Settles O2: on either format, what was decoded holds every bit of the word. -/
theorem encodeOfDecodeIsIdentity : Obligations.EncodeOfDecodeIsIdentity := by
  unfold Obligations.EncodeOfDecodeIsIdentity
  intro c i h
  cases c with
  | cmd32 w => exact encode_of_decodeHost h
  | wire8 b =>
    have he : encode i = .wire8 b := Machine.decodeWire_encode h
    exact ⟨wf_of_encode_wire he, he⟩

/-! ### The display-control byte -/

theorem field_high_displayControlByte : ∀ (enabled : Bool) (brightness : BitVec 3),
    field (displayControlByte enabled brightness) 4 4 = 0x8#4 := by decide

theorem getLsbD_three_displayControlByte : ∀ (enabled : Bool) (brightness : BitVec 3),
    (displayControlByte enabled brightness).getLsbD 3 = enabled := by decide

theorem field_low_displayControlByte : ∀ (enabled : Bool) (brightness : BitVec 3),
    field (displayControlByte enabled brightness) 0 3 = brightness := by decide

theorem displayControlByte_range : ∀ (enabled : Bool) (brightness : BitVec 3),
    if enabled then
      0x88 ≤ (displayControlByte enabled brightness).toNat ∧
        (displayControlByte enabled brightness).toNat ≤ 0x8F
    else
      0x80 ≤ (displayControlByte enabled brightness).toNat ∧
        (displayControlByte enabled brightness).toNat ≤ 0x87 := by decide

/-- Settles O5: `Start` puts the display-control byte of `CFG` on the bus. -/
theorem displayControlByteLayout : Obligations.DisplayControlByteLayout := by
  unfold Obligations.DisplayControlByteLayout
  intro s
  exact ⟨displayControlByte s.cfg.enabled s.cfg.brightness, rfl, rfl, rfl,
    field_high_displayControlByte _ _, getLsbD_three_displayControlByte _ _,
    field_low_displayControlByte _ _, displayControlByte_range _ _⟩

/-! ### Decoding what was encoded -/

theorem decode_encode_init (r p : BitVec 14) : decode (encode (.init r p)) = .instr (.init r p) := by
  have hr : field (0x1#4 ++ r ++ p) 14 14 = r := field_append_middle _ _ _
  have hp : field (0x1#4 ++ r ++ p) 0 14 = p := field_append_right _ _
  exact (decodeHost_init (field_append_left _ _ _)).trans
    (congrArg Decoded.instr (congrArg₂ Instr.init hr hp))

theorem decode_encode_request (mask : BitVec 3) :
    decode (encode (.request mask)) = .instr (.request mask) := by
  have hmask : field (0x2#4 ++ 0#25 ++ mask) 0 3 = mask := field_append_right _ _
  exact (decodeHost_request (field_append_left _ _ _)).trans
    (instr_of_zero_iff.2 ⟨field_append_middle _ _ _, congrArg Instr.request hmask⟩)

theorem decode_encode_writeDigit (pos : BitVec 8) (val : BitVec 16) (fits : digitValueFits val = true) :
    decode (encode (.writeDigit pos val)) = .instr (.writeDigit pos val) := by
  have op : field (0x3#4 ++ 0#12 ++ pos ++ val.setWidth 8) 28 4 = 0x3#4 :=
    (field_append_high _ _ 28 4 (by decide)).trans (field_append_left _ _ _)
  have zero : field (0x3#4 ++ 0#12 ++ pos ++ val.setWidth 8) 16 12 = 0#12 :=
    (field_append_high _ _ 16 12 (by decide)).trans (field_append_middle _ _ _)
  have hpos : field (0x3#4 ++ 0#12 ++ pos ++ val.setWidth 8) 8 8 = pos := field_append_middle _ _ _
  have hval : (field (0x3#4 ++ 0#12 ++ pos ++ val.setWidth 8) 0 8).signExtend 16 = val := by
    rw [field_append_right, signExtend_low_of_fits val fits]
  exact (decodeHost_writeDigit op).trans
    (instr_of_zero_iff.2 ⟨zero, congrArg₂ Instr.writeDigit hpos hval⟩)

theorem decode_encode_setEnabled : ∀ en : Bool,
    decode (encode (.setEnabled en)) = .instr (.setEnabled en) := by decide

theorem decode_encode_setBrightness (level : BitVec 3) :
    decode (encode (.setBrightness level)) = .instr (.setBrightness level) := by
  have hlevel : field (0x5#4 ++ 0#25 ++ level) 0 3 = level := field_append_right _ _
  exact (decodeHost_setBrightness (field_append_left _ _ _)).trans
    (instr_of_zero_iff.2 ⟨field_append_middle _ _ _, congrArg Instr.setBrightness hlevel⟩)

theorem decode_encode_wireDisplayControl (enabled : Bool) (brightness : BitVec 3) :
    decode (encode (.wireDisplayControl enabled brightness)) =
      .instr (.wireDisplayControl enabled brightness) := by
  rw [encode, decode, decodeWire, if_pos (field_high_displayControlByte enabled brightness),
    getLsbD_three_displayControlByte, field_low_displayControlByte]

theorem decode_encode_wireSetAddress : ∀ addr : BitVec 4,
    decode (encode (.wireSetAddress addr)) = .instr (.wireSetAddress addr) := by decide

/-- Settles O1, row by row: the decoder reads back the fields that the encoder appends. -/
theorem decodeOfEncodeIsIdentity : Obligations.DecodeOfEncodeIsIdentity := by
  unfold Obligations.DecodeOfEncodeIsIdentity
  intro i hwf
  cases i with
  | init r p => exact decode_encode_init r p
  | request mask => exact decode_encode_request mask
  | writeDigit pos val => exact decode_encode_writeDigit pos val hwf
  | setEnabled en => exact decode_encode_setEnabled en
  | setBrightness level => exact decode_encode_setBrightness level
  | getKeys => decide
  | wireDisplayControl enabled brightness => exact decode_encode_wireDisplayControl enabled brightness
  | wireReadData => decide
  | wireWriteData => decide
  | wireSetAddress addr => exact decode_encode_wireSetAddress addr

/-! ### Pseudo-instructions -/

theorem Pseudo.wf_expand (p : Pseudo) : p.expand.wf = true := by
  cases p with
  | blankDigit pos =>
    have blank : digitValueFits (-1) = true := by decide
    exact blank
  | _ => rfl

/-- A blank is the value -1, whose low byte is 0xFF: the words agree bit by bit. -/
theorem encode_blankDigit (pos : BitVec 8) :
    encode (Pseudo.blankDigit pos).expand = .cmd32 (0x300000FF#32 ||| (pos.setWidth 32 <<< 8)) := by
  simp only [Pseudo.expand, encode, CodeWord.cmd32.injEq]
  apply BitVec.eq_of_getLsbD_eq
  intro i hi
  interval_cases i <;> simp only [BitVec.getLsbD_append, BitVec.getLsbD_or] <;> simp

/-- Settles O7: R70's words are computed, and each decodes as the encoding of a well-formed instruction. -/
theorem pseudoInstructionsExpand : Obligations.PseudoInstructionsExpand := by
  unfold Obligations.PseudoInstructionsExpand
  exact ⟨rfl, rfl, rfl, rfl, rfl, rfl, encode_blankDigit,
    fun p => decodeOfEncodeIsIdentity p.expand p.wf_expand⟩

end Sys2Proof

namespace Sys2Proof.Machine

/-- Settles O9: the wire byte's instruction sends it, and that is the transport's step. -/
theorem stepRunsWireByte : Obligations.StepRunsWireByte := by
  unfold Obligations.StepRunsWireByte
  intro s r b code cursor i ⟨hf, hn⟩ _ hx hd
  have sending : (consumeTurn s).xfer = .tx b := hx
  calc step s = .next (transportComplete r (consumeTurn s)) := step_transport hf hn (by simp [hx])
    _ = .next (transportComplete 0 (consumeTurn s)) := by rw [transportComplete_tx sending]
    _ = exec i (consumeTurn s) := (exec_onBus (decodeWire_encode hd) sending).symm

end Sys2Proof.Machine
end

section
/-! PROOFS. The Arbiter (40_arbiter.md): `Select`, what REQUEST answers in a busy and in an idle block, and
the kinds that each `Finish` starts in turn. -/

namespace Sys2Proof.Machine

/-! ### `Select` -/

/-- `lsb` of the kinds is the bit of the one selected (40_arbiter.md R71). -/
theorem lowestBit_of_selectKind {x : BitVec 3} {k : Kind} (h : selectKind x = some k) :
    lowestBit x = kindBit (kindCode k) := by
  revert h x
  cases k <;> decide

/-- Settles O17: the law of `Select` that every use of it goes through, and its table by evaluation. -/
theorem selectTakesLowestSetBit : Obligations.SelectTakesLowestSetBit := by
  unfold Obligations.SelectTakesLowestSetBit
  refine ⟨fun x k => selectKind_eq_some, fun x k => lowestBit_of_selectKind, ?_⟩
  decide

/-! ### REQUEST in a busy block -/

section
variable {s : State} {mask : BitVec 3}

theorem exec_request (mask : BitVec 3) (s : State) :
    exec (.request mask) s = .next (retire (requestKinds mask s)) := rfl

theorem exec_request_busy {code : BitVec 2} {st c : BitVec 5} (busy : s.act = .busy code st c) :
    exec (.request mask) s =
      .next { s with req := s.req ||| (mask &&& ~~~(kindBit code)), hpc := s.hpc + 1 } := by
  rw [exec_request, requestKinds_busy busy, retire]

/-- Where every kind of the mask but the active one is marked already, a request adds none. -/
theorem exec_request_marked {code : BitVec 2} {st c : BitVec 5} (busy : s.act = .busy code st c)
    (marked : s.req ||| (mask &&& ~~~(kindBit code)) = s.req) :
    exec (.request mask) s = .next { s with hpc := s.hpc + 1 } := by
  rw [exec_request_busy busy, marked]

/-! ### REQUEST in an idle block -/

theorem dispatch_of_req_zero (empty : s.req = 0) : dispatch s = s := by
  rw [dispatch, selectKind_eq_none.2 empty]

theorem exec_request_nothing (idle : s.act = .idle) (nothing : s.req ||| mask = 0) :
    exec (.request mask) s = .next { s with hpc := s.hpc + 1 } := by
  obtain ⟨empty, -⟩ := BitVec.or_eq_zero_iff.1 nothing
  have same : s.req ||| mask = s.req := nothing.trans empty.symm
  rw [exec_request, requestKinds_idle idle, same, dispatch_of_req_zero empty, retire]

theorem exec_request_starts {k : Kind} (idle : s.act = .idle)
    (first : selectKind (s.req ||| mask) = some k) :
    exec (.request mask) s = .next (retire (start k { s with req := s.req ||| mask })) := by
  rw [exec_request, requestKinds_starts idle first]

/-! ### What `Finish` does for the kinds that wait -/

theorem finish_act_of_select {k : Kind} (next : selectKind s.req = some k) :
    (finish s).act = .busy (kindCode k) 0 0 := by
  rw [finish_chains next, start_act]

theorem finish_req_of_select {k : Kind} (next : selectKind s.req = some k) :
    (finish s).req = s.req &&& ~~~(kindBit (kindCode k)) := by
  rw [finish_chains next, start_req]

theorem finish_trace_of_select {k : Kind} (next : selectKind s.req = some k) :
    (finish s).trace = s.trace ++ [.deselect, .select, .tx (openingByte k s.cfg)] := by
  rw [finish_chains next, start_trace, List.append_assoc]
  rfl

end

/-- Settles O18: the three cases of 40_arbiter.md R73, and of the kinds left waiting the highest-priority one
at the next `Finish`. -/
theorem requestMarksAndStarts : Obligations.RequestMarksAndStarts := by
  unfold Obligations.RequestMarksAndStarts
  intro mask s
  refine ⟨decode_encode_request mask, fun code st c => exec_request_busy, exec_request_nothing,
    fun k idle first => ⟨?_, fun j next => ?_⟩⟩
  · exact exec_request_starts idle (selectKind_eq_some.2 first)
  · exact finish_act_of_select (selectKind_eq_some.2 next)

/-- Settles O19: without the active kind's bit, the mask of that bit is empty. -/
theorem activeKindIsDropped : Obligations.ActiveKindIsDropped := by
  unfold Obligations.ActiveKindIsDropped
  intro s k st c busy
  apply exec_request_marked busy
  rw [BitVec.and_not_self]
  exact BitVec.or_zero

/-- Settles O20: the first request leaves every kind of the mask but the active one marked. -/
theorem requestsCoalesce : Obligations.RequestsCoalesce := by
  unfold Obligations.RequestsCoalesce
  intro mask s t notIdle h
  cases busy : s.act with
  | idle => exact absurd busy notIdle
  | busy code st c =>
    rw [exec_request_busy busy] at h
    cases h
    refine exec_request_marked busy ?_
    rw [BitVec.or_assoc, BitVec.or_self]

/-- With ReadKeys and WriteSegments waiting, the two run in that order and the block comes to rest. -/
theorem finish_drains_readKeys_writeSegments {t : State} (waiting : t.req = 0b110) :
    (finish t).act = .busy (kindCode .rk) 0 0 ∧ (finish t).req = 0b100 ∧
    (finish (finish t)).act = .busy (kindCode .ws) 0 0 ∧ (finish (finish t)).req = 0b000 ∧
    (finish (finish (finish t))).act = .idle ∧
    (finish (finish (finish t))).trace =
      t.trace ++ [.deselect, .select, .tx 0x42, .deselect, .select, .tx 0x40, .deselect] := by
  have rk : selectKind t.req = some .rk := by rw [waiting]; decide
  have req₁ : (finish t).req = 0b100 := by rw [finish_req_of_select rk, waiting]; decide
  have ws : selectKind (finish t).req = some .ws := by rw [req₁]; decide
  have req₂ : (finish (finish t)).req = 0b000 := by rw [finish_req_of_select ws, req₁]; decide
  refine ⟨finish_act_of_select rk, req₁, finish_act_of_select ws, req₂, ?_, ?_⟩ <;> rw [finish_rests req₂]
  simp [finish_trace_of_select ws, finish_trace_of_select rk, openingByte, readDataByte, writeDataByte]

/-- Settles O21: the request starts WriteConfig and leaves the two other kinds waiting. -/
theorem threeKindsRunInPriorityOrder : Obligations.ThreeKindsRunInPriorityOrder := by
  unfold Obligations.ThreeKindsRunInPriorityOrder
  intro s idle empty
  have wc : selectKind (s.req ||| 0b111) = some .wc := by rw [empty]; decide
  have waiting : (s.req ||| 0b111) &&& ~~~(kindBit (kindCode .wc)) = 0b110 := by rw [empty]; decide
  obtain ⟨act₁, req₁, act₂, req₂, act₃, trace₃⟩ :=
    finish_drains_readKeys_writeSegments
      (t := retire (start .wc { s with req := s.req ||| 0b111 })) waiting
  refine ⟨_, exec_request_starts idle wc, rfl, waiting, act₁, req₁, act₂, req₂, act₃, trace₃.trans ?_⟩
  simp

end Sys2Proof.Machine
end

section
/-! PROOFS. The opening bytes (41_transfer.md R78) and the framing of the bus (R90): where each move of an agent
leaves the automaton of the sequences. -/

namespace Sys2Proof.Machine

/-! ### The opening bytes -/

/-- The instruction that byte 0 of a command stands for (30_encoding.md R67). -/
def openingInstr (k : Kind) (cfg : DisplayConfig) : Instr :=
  match k with
  | .wc => .wireDisplayControl cfg.enabled cfg.brightness
  | .rk => .wireReadData
  | .ws => .wireWriteData

theorem decodeWire_openingByte (k : Kind) (cfg : DisplayConfig) :
    decodeWire (openingByte k cfg) = .instr (openingInstr k cfg) := by
  cases k with
  | wc => exact decode_encode_wireDisplayControl cfg.enabled cfg.brightness
  | rk => exact (by decide : decodeWire readDataByte = .instr .wireReadData)
  | ws => exact (by decide : decodeWire writeDataByte = .instr .wireWriteData)

/-- What a byte decodes to tells the opening bytes from the set-address bytes (30_encoding.md R68). -/
theorem openingByte_ne_setAddressByte (k : Kind) (cfg : DisplayConfig) (addr : BitVec 4) :
    openingByte k cfg ≠ setAddressByte addr := by
  intro h
  have address : decodeWire (setAddressByte addr) = .instr (.wireSetAddress addr) :=
    decode_encode_wireSetAddress addr
  rw [← h, decodeWire_openingByte] at address
  cases k <;> simp [openingInstr] at address

/-- Settles O6: the table of 41_transfer.md R78, and the decoding of each byte 0. -/
theorem openingBytesAndLengths : Obligations.OpeningBytesAndLengths := by
  unfold Obligations.OpeningBytesAndLengths
  intro cfg
  exact ⟨rfl, rfl, rfl, rfl, rfl, rfl, decodeWire_openingByte .wc cfg, decodeWire_openingByte .rk cfg,
    decodeWire_openingByte .ws cfg, fun k addr => openingByte_ne_setAddressByte k cfg addr⟩

/-! ### Where the bus must stand, by the value of `ACT` -/

section
variable {s : State} {step c : BitVec 5}

theorem expectedBusPos_idle (hact : s.act = .idle) : expectedBusPos s = .released := by
  simp [expectedBusPos, hact]

theorem expectedBusPos_wc (hact : s.act = .busy (kindCode .wc) step c) : expectedBusPos s = .configSent := by
  simp [expectedBusPos, hact]

theorem expectedBusPos_ws (hact : s.act = .busy (kindCode .ws) step c) :
    expectedBusPos s = .payload step.toNat := by
  simp [expectedBusPos, hact]

theorem expectedBusPos_rk_zero (hact : s.act = .busy (kindCode .rk) 0 c) : expectedBusPos s = .readSent := by
  simp [expectedBusPos, hact]

theorem expectedBusPos_rk_pending {r : Option Byte} (hact : s.act = .busy (kindCode .rk) step c)
    (first : step ≠ 0) (hevt : s.evt = .done r) : expectedBusPos s = .received step.toNat := by
  simp only [expectedBusPos, hact, kindOf_kindCode, if_neg first, hevt]

theorem expectedBusPos_rk_receiving (hact : s.act = .busy (kindCode .rk) step c)
    (first : step ≠ 0) (hevt : s.evt = .none) : expectedBusPos s = .receiving (step.toNat - 1) := by
  simp only [expectedBusPos, hact, kindOf_kindCode, if_neg first, hevt]

end

/-! ### The automaton along a trace -/

theorem busPos_append {trace : List BusEvent} {p : BusPos} (h : busPos trace = some p) (es : List BusEvent) :
    busPos (trace ++ es) = es.foldlM busNext p := by
  rw [busPos, List.foldl_append, ← busPos, h]
  exact (List.foldlM_eq_foldl busNext p es).symm

theorem Framed.of_same {s t : State} (h : Framed s) (htrace : t.trace = s.trace) (hact : t.act = s.act)
    (hevt : t.evt = s.evt) : Framed t := by
  simpa only [Framed, expectedBusPos, htrace, hact, hevt] using h

theorem Framed.retire {s : State} (h : Framed s) : Framed (retire s) := h.of_same rfl rfl rfl

/-- The events that a move adds lead from the old position to the new. -/
theorem Framed.emits {s t : State} {es : List BusEvent} (h : Framed s) (htrace : t.trace = s.trace ++ es)
    (path : es.foldlM busNext (expectedBusPos s) = some (expectedBusPos t)) : Framed t := by
  rw [Framed, htrace, busPos_append h, path]

/-! ### The Arbiter, `Start` and `Finish` -/

theorem expectedBusPos_start (k : Kind) (s : State) :
    afterOpcode (openingByte k s.cfg) = some (expectedBusPos (start k s)) := by
  rw [afterOpcode, decodeWire_openingByte]
  cases k <;> rfl

theorem framed_start {k : Kind} {s : State} (released : busPos s.trace = some .released) :
    Framed (start k s) := by
  rw [Framed, start_trace, busPos_append released, ← expectedBusPos_start]
  simp [busNext]

theorem framed_dispatch {s : State} (hact : s.act = .idle) (released : busPos s.trace = some .released) :
    Framed (dispatch s) := by
  obtain ⟨-, e⟩ | ⟨k, -, e⟩ := dispatch_cases s <;> rw [e]
  · rw [Framed, released, expectedBusPos_idle hact]
  · exact framed_start released

/-- `Finish` may come where the sequence of the command is complete. -/
theorem framed_finish {s : State} {p : BusPos} (hpos : busPos s.trace = some p)
    (complete : busNext p .deselect = some .released) : Framed (finish s) := by
  refine framed_dispatch rfl ?_
  rw [emit_trace, busPos_append hpos]
  simpa using complete

theorem Framed.requestKinds {s : State} (h : Framed s) (mask : BitVec 3) :
    Framed (requestKinds mask s) := by
  cases hact : s.act with
  | idle =>
    rw [requestKinds_idle hact]
    rw [Framed, expectedBusPos_idle hact] at h
    exact framed_dispatch hact h
  | busy code step c =>
    rw [requestKinds_busy hact]
    exact h.of_same rfl rfl rfl

/-! ### The agents -/

/-- A host command leaves the bus alone, but for the request it can make. -/
theorem Framed.hostMove {s t : State} {i : Instr} (h : Framed s) (hm : HostMove s i t) : Framed t := by
  cases hm with
  | initialisedRequesting => exact Framed.retire (Framed.requestKinds (by exact h.of_same rfl rfl rfl) _)
  | requested mask => exact (h.requestKinds mask).retire
  | enabledSet => exact Framed.retire (Framed.requestKinds (by exact h.of_same rfl rfl rfl) _)
  | brightnessSet => exact Framed.retire (Framed.requestKinds (by exact h.of_same rfl rfl rfl) _)
  | _ => exact h.of_same rfl rfl rfl

theorem Framed.hostStep {s t : State} (h : Framed s) (ht : hostStep s = .next t) : Framed t := by
  obtain ⟨-, e⟩ | ⟨_, -, e⟩ | ⟨i, w, -, hd, e⟩ := hostStep_cases s <;> rw [e] at ht
  · cases ht
    exact h
  · cases ht
    exact h.of_same rfl rfl rfl
  · exact h.hostMove (hostCommand_move hd ht)

/-- A transmission in flight has no event yet, and is outside receive mode. -/
theorem oneOperation_tx {receiving : Bool} {b : Byte} {e : Evt} (h : OneOperation receiving (.tx b) e) :
    e = .none ∧ receiving = false := by
  cases e <;> simp_all [OneOperation]

/-- A reception in flight has no event yet, and is in receive mode. -/
theorem oneOperation_rx {receiving : Bool} {e : Evt} (h : OneOperation receiving .rx e) :
    e = .none ∧ receiving = true := by
  cases e <;> simp_all [OneOperation]

/-- Outside receive mode the position does not depend on the pending event. -/
theorem expectedBusPos_evt {s : State} {k : Kind} {step c : BitVec 5} (hk : InTransfer k step c s)
    (transmitting : s.rxmode = false) {x : Xfer} {e : Evt} :
    expectedBusPos { s with xfer := x, evt := e } = expectedBusPos s := by
  obtain ⟨⟨hact, -⟩, -, -, -, hrecv, -⟩ := hk
  cases k with
  | wc => rw [expectedBusPos_wc hact, expectedBusPos_wc (by exact hact)]
  | rk =>
    obtain rfl : step = 0 := by simpa [transmitting] using hrecv
    rw [expectedBusPos_rk_zero hact, expectedBusPos_rk_zero (by exact hact)]
  | ws => rw [expectedBusPos_ws hact, expectedBusPos_ws (by exact hact)]

theorem Framed.transportComplete {s : State} (h : Framed s) (inv : StepInvariant s) (r : Byte) :
    Framed (transportComplete r s) := by
  obtain ⟨-, ⟨-, -, hxfer, -⟩ | ⟨k, step, c, hk⟩⟩ := stepInvariant_iff.1 inv
  · have e : Machine.transportComplete r s = s := by simp [Machine.transportComplete, hxfer]
    rwa [e]
  have ⟨⟨hact, _⟩, _, _, _, hrecv, hop⟩ := hk
  obtain ⟨-, e⟩ | ⟨b, hx, e⟩ | ⟨hx, e⟩ := transportComplete_cases r s <;> rw [e]
  · exact h
  · rw [hx] at hop
    obtain ⟨-, transmitting⟩ := oneOperation_tx hop
    rw [Framed, expectedBusPos_evt hk transmitting]
    exact h
  · rw [hx] at hop
    obtain ⟨hevt, hmode⟩ := oneOperation_rx hop
    obtain ⟨rfl, first⟩ := hrecv.1 hmode
    have h1 : 1 ≤ step.toNat := ne_zero_iff_toNat.1 first
    refine h.emits rfl ?_
    rw [expectedBusPos_rk_receiving hact first hevt, expectedBusPos_rk_pending (by exact hact) first rfl]
    simp [busNext, h1]

/-- The step of the active command, taken with its event, sends what its sequence has next. -/
theorem Framed.handlerMove {s t : State} {k : Kind} {step c : BitVec 5} {r : Option Byte}
    (h : Framed s) (hk : InTransfer k step c s) (hevt : s.evt = .done r)
    (hm : HandlerMove { s with evt := .none } k step c r t) : Framed t := by
  have ⟨⟨hact, hlt⟩, _, _, _, hrecv, hop⟩ := hk
  cases hm with
  | configSent =>
    rw [Framed, expectedBusPos_wc hact] at h
    exact framed_finish h rfl
  | receiveEntered =>
    refine h.emits rfl ?_
    rw [expectedBusPos_rk_zero hact, expectedBusPos_rk_receiving rfl (by decide) rfl]
    rfl
  | keyStaged _ _ b first last =>
    have h4 : step.toNat ≠ 4 := toNat_ne (by decide) last
    have more : step.toNat < 4 := by simp only [totalSteps] at hlt; omega
    have hstep := toNat_add_one (step := step) (by omega)
    have hnext : step + 1 ≠ 0 := ne_zero_iff_toNat.2 (by omega)
    refine h.emits rfl ?_
    rw [expectedBusPos_rk_pending hact first hevt, expectedBusPos_rk_receiving rfl hnext rfl, hstep]
    simp [busNext, more]
  | keysCommitted _ b =>
    rw [Framed, expectedBusPos_rk_pending hact (by decide) hevt] at h
    refine framed_finish (p := .readOver) ?_ rfl
    rw [emit_trace, busPos_append h]
    rfl
  | byteMissing _ _ first =>
    rw [hevt] at hop
    obtain ⟨-, hmode⟩ := oneOperation_done hop
    simp [hrecv.2 ⟨rfl, first⟩] at hmode
  | payloadSent _ _ _ b last =>
    have h16 : step.toNat ≠ 16 := toNat_ne (by decide) last
    have more : step.toNat < 16 := by simp only [totalSteps] at hlt; omega
    have hstep := toNat_add_one (step := step) (by omega)
    refine h.emits rfl ?_
    rw [expectedBusPos_ws hact, expectedBusPos_ws rfl, hstep]
    simp [busNext, more]
  | frameSent =>
    rw [Framed, expectedBusPos_ws hact] at h
    exact framed_finish h rfl

theorem Framed.handlerTurn {s t : State} (h : Framed s) (inv : StepInvariant s)
    (ht : handlerTurn s = .next t) : Framed t := by
  obtain ⟨-, rfl⟩ | ⟨r, hevt, ho⟩ := handlerTurn_cases ht
  · exact h
  · obtain ⟨-, ⟨-, -, -, hnone, -, -⟩ | ⟨k, step, c, hk⟩⟩ := stepInvariant_iff.1 inv
    · simp [hevt] at hnone
    · obtain ⟨-, hbad⟩ | ⟨_, _, _, ⟨hact, -⟩, hm⟩ := onComplete_cases ho
      · exact absurd hk.due (hbad k step c)
      · exact h.handlerMove (inv.inTransfer hact) hevt hm

/-- Settles O45: each agent's move adds to the trace what the active command's sequence has next. -/
theorem stepKeepsFraming : Obligations.StepKeepsFraming := by
  unfold Obligations.StepKeepsFraming
  intro s t inv h hs
  have invTurn : StepInvariant (consumeTurn s) := inv.of_sameTransfer {}
  have hturn : Framed (consumeTurn s) := h.of_same rfl rfl rfl
  cases step_move hs with
  | rested => exact h
  | passed => exact hturn
  | host _ _ moved => exact hturn.hostStep moved
  | handler _ moved => exact hturn.handlerTurn invTurn moved
  | transport r => exact hturn.transportComplete invTurn r
  | trigger mask => exact hturn.requestKinds mask

end Sys2Proof.Machine
end

section
/-! PROOFS. The steps of a transfer (41_transfer.md section 4): what `OnComplete` answers at each step of each kind,
said once, and from it the handler's turn and the handler phase of the wire bytes. -/

namespace Sys2Proof.Machine

/-! ### `OnComplete`, step by step -/

/-- `Finish` with a kind waiting, as an equation of whole states. -/
theorem finish_starts {s : State} {k : Kind} (first : HighestPriority k s.req) :
    finish s =
      { s with
        req := s.req &&& ~~~(kindBit (kindCode k))
        cs := true
        act := .busy (kindCode k) 0 0
        xfer := .tx (openingByte k s.cfg)
        trace := s.trace ++ [.deselect, .select, .tx (openingByte k s.cfg)] } := by
  rw [finish_chains (selectKind_eq_some.2 first), start, emit]
  simp only [List.append_assoc, List.cons_append, List.nil_append]

section
variable {s : State} {step c : BitVec 5} {r : Option Byte}

theorem onComplete_of_due {k : Kind} (hd : StepDue s k step c) :
    onComplete r s = handlerStep k step c r s := by
  obtain ⟨hact, hlt⟩ := hd
  simp only [onComplete, hact, kindOf_kindCode, if_neg (Nat.not_le.2 hlt)]

/-- R84. -/
theorem onComplete_readSent (hact : s.act = .busy (kindCode .rk) 0 c) :
    onComplete r s = .next (rkStepZero s) :=
  onComplete_of_due ⟨hact, by decide⟩

/-- R85. -/
theorem onComplete_keyByte {b : Byte} (hact : s.act = .busy (kindCode .rk) step c) (first : 1 ≤ step.toNat)
    (last : step.toNat ≤ 3) (hc : c.toNat = step.toNat - 1) :
    onComplete (some b) s =
      .next { s with
        kstage := setByteAt s.kstage c.toNat b
        xfer := .rx
        act := .busy (kindCode .rk) (step + 1) (c + 1)
        trace := s.trace ++ [.rxStart] } := by
  have hlt : step.toNat < totalSteps .rk := by simp only [totalSteps]; omega
  have h0 : step ≠ 0 := ne_zero_iff_toNat.2 first
  have h4 : step ≠ 4 := by rintro rfl; exact absurd last (by decide)
  have room : c.toNat < 3 := by omega
  rw [onComplete_of_due ⟨hact, hlt⟩, handlerStep, if_neg h0, if_neg h4, rkMid, if_pos room, emit]

/-- R86. -/
theorem onComplete_lastKeyByte {b : Byte} (hact : s.act = .busy (kindCode .rk) 4 c) :
    onComplete (some b) s =
      .next (finish { s with keys := b ++ s.kstage, rxmode := false, trace := s.trace ++ [.rxOff] }) :=
  onComplete_of_due ⟨hact, by decide⟩

/-- R85 and R86, without a byte. -/
theorem onComplete_missingByte (hact : s.act = .busy (kindCode .rk) step c) (first : 1 ≤ step.toNat)
    (last : step.toNat ≤ 4) : onComplete none s = .next (raiseFault .rxByteMissing s) := by
  have hlt : step.toNat < totalSteps .rk := by simp only [totalSteps]; omega
  have h0 : step ≠ 0 := ne_zero_iff_toNat.2 first
  rw [onComplete_of_due ⟨hact, hlt⟩, handlerStep, if_neg h0, rkFinal, rkMid, ite_self]

/-- R87. -/
theorem onComplete_payload {b : Byte} (hact : s.act = .busy (kindCode .ws) step c) (last : step.toNat ≤ 15)
    (hb : fbByte s.fb c.toNat = some b) :
    onComplete r s =
      .next { s with
        xfer := .tx b
        act := .busy (kindCode .ws) (step + 1) (c + 1)
        trace := s.trace ++ [.tx b] } := by
  have hlt : step.toNat < totalSteps .ws := by simp only [totalSteps]; omega
  have h16 : step ≠ 16 := by rintro rfl; exact absurd last (by decide)
  simp only [onComplete_of_due ⟨hact, hlt⟩, handlerStep, if_neg h16, wsPayload, hb, emit]

/-- R83 and R88: the steps that do nothing but finish. -/
theorem onComplete_finishes
    (hact : s.act = .busy (kindCode .wc) 0 c ∨ s.act = .busy (kindCode .ws) 16 c) :
    onComplete r s = .next (finish s) := by
  obtain hact | hact := hact
  · exact onComplete_of_due ⟨hact, by decide⟩
  · exact onComplete_of_due ⟨hact, by decide⟩

/-- R89 with nothing requested. -/
theorem onComplete_rests
    (hact : s.act = .busy (kindCode .wc) 0 c ∨ s.act = .busy (kindCode .ws) 16 c) (hreq : s.req = 0) :
    onComplete r s = .next { s with act := .idle, cs := false, trace := s.trace ++ [.deselect] } :=
  (onComplete_finishes hact).trans (congrArg Host.Outcome.next (finish_rests hreq))

/-- R89 with `k` the next kind. -/
theorem onComplete_chains {k : Kind}
    (hact : s.act = .busy (kindCode .wc) 0 c ∨ s.act = .busy (kindCode .ws) 16 c)
    (first : HighestPriority k s.req) :
    onComplete r s =
      .next { s with
        req := s.req &&& ~~~(kindBit (kindCode k))
        cs := true
        act := .busy (kindCode k) 0 0
        xfer := .tx (openingByte k s.cfg)
        trace := s.trace ++ [.deselect, .select, .tx (openingByte k s.cfg)] } :=
  (onComplete_finishes hact).trans (congrArg Host.Outcome.next (finish_starts first))

/-! ### The checks of R82 -/

theorem onComplete_idle (hact : s.act = .idle) : onComplete r s = .next (raiseFault .eventWhileIdle s) := by
  simp only [onComplete, hact]

theorem onComplete_badKind (hact : s.act = .busy 3 step c) :
    onComplete r s = .next (raiseFault .badKind s) := by
  have illegal : kindOf 3 = none := by decide
  simp only [onComplete, hact, illegal]

theorem onComplete_outOfRange {k : Kind} (hact : s.act = .busy (kindCode k) step c)
    (hle : totalSteps k ≤ step.toNat) : onComplete r s = .next (raiseFault .stepOutOfRange s) := by
  simp only [onComplete, hact, kindOf_kindCode, if_pos hle]

end

/-- Every payload address has a byte (20_memory.md R39). -/
theorem fbByte_exists (fb : Framebuffer) {i : Nat} (hi : i < 16) : ∃ b, fbByte fb i = some b :=
  Option.isSome_iff_exists.1 ((fbByte_isSome fb i).trans (decide_eq_true hi))

/-! ### The bytes of the staging register and of the snapshot -/

theorem byteAt_eq_field {n : Nat} (v : BitVec n) (i : Nat) : byteAt v i = field v (8 * i) 8 := rfl

theorem append_bytes (v : BitVec 24) : byteAt v 2 ++ byteAt v 1 ++ byteAt v 0 = v :=
  append_of_fields (m := 8) (n := 8) (k := 8) (byteAt_eq_field v 2).symm (byteAt_eq_field v 1).symm
    (byteAt_eq_field v 0).symm

theorem append_bytes_assoc (b x y z : Byte) : b ++ (x ++ y ++ z) = b ++ x ++ y ++ z := by
  simp only [BitVec.append_assoc, BitVec.cast_eq]

/-- The committed word has the last byte above the three staged ones (20_memory.md R42). -/
theorem append_kstage (b : Byte) (v : BitVec 24) :
    b ++ v = b ++ byteAt v 2 ++ byteAt v 1 ++ byteAt v 0 := by
  rw [← append_bytes_assoc, append_bytes]

/-! ### The handler's turn -/

theorem step_of_takes {s : State} {r : Option Byte} (h : HandlerTakes r s) :
    step s = onComplete r { consumeTurn s with evt := .none } := by
  obtain ⟨⟨hf, hn⟩, hevt⟩ := h
  exact step_handler hf hn hevt

/-- Settles O36: the turn is `OnComplete` at the step of the read-data byte. -/
theorem handlerStartsReceiving : Obligations.HandlerStartsReceiving := by
  unfold Obligations.HandlerStartsReceiving
  intro s r c ht hact
  exact (step_of_takes ht).trans (onComplete_readSent hact)

/-- Settles O37: byte `c` of the staging register reads back, and its other bytes are kept. -/
theorem handlerStagesKeyByte : Obligations.HandlerStagesKeyByte := by
  unfold Obligations.HandlerStagesKeyByte
  intro s r st c ht hact first last hc
  refine ⟨fun hr => ?_, fun b hr => ⟨setByteAt s.kstage c.toNat b, ?_, ?_, fun j hj hne => ?_⟩⟩
  · subst hr
    exact (step_of_takes ht).trans (onComplete_missingByte hact first (by omega))
  · subst hr
    exact (step_of_takes ht).trans (onComplete_keyByte hact first last hc)
  · rw [byteAt_setByteAt _ _ _ _ (by omega) (by omega), if_pos rfl]
  · rw [byteAt_setByteAt _ _ _ _ (by omega) (by omega), if_neg hne]

section
variable {s : State} {c : BitVec 5} {b : Byte}

/-- R86 with nothing requested. -/
theorem onComplete_lastKeyByte_rests (hact : s.act = .busy (kindCode .rk) 4 c) (hreq : s.req = 0) :
    onComplete (some b) s =
      .next { s with
        keys := b ++ byteAt s.kstage 2 ++ byteAt s.kstage 1 ++ byteAt s.kstage 0
        rxmode := false
        cs := false
        act := .idle
        trace := s.trace ++ [.rxOff, .deselect] } := by
  rw [onComplete_lastKeyByte hact, finish_rests (by exact hreq), append_kstage]
  simp only [List.append_assoc, List.cons_append, List.nil_append]

/-- R86 with `k` the next kind. -/
theorem onComplete_lastKeyByte_chains {k : Kind} (hact : s.act = .busy (kindCode .rk) 4 c)
    (first : HighestPriority k s.req) :
    onComplete (some b) s =
      .next { s with
        keys := b ++ byteAt s.kstage 2 ++ byteAt s.kstage 1 ++ byteAt s.kstage 0
        rxmode := false
        req := s.req &&& ~~~(kindBit (kindCode k))
        cs := true
        act := .busy (kindCode k) 0 0
        xfer := .tx (openingByte k s.cfg)
        trace := s.trace ++ [.rxOff, .deselect, .select, .tx (openingByte k s.cfg)] } := by
  rw [onComplete_lastKeyByte hact, finish_starts (by exact first), append_kstage]
  simp only [List.append_assoc, List.cons_append, List.nil_append]

end

/-- Settles O38: the commit is followed by `Finish`, which rests or chains. -/
theorem handlerCommitsSnapshot : Obligations.HandlerCommitsSnapshot := by
  unfold Obligations.HandlerCommitsSnapshot
  intro s r c ht hact
  refine ⟨fun hr => ?_, fun b hr hreq => ?_, fun b k hr first => ?_⟩ <;> subst hr
  · exact (step_of_takes ht).trans (onComplete_missingByte hact (by decide) (by decide))
  · exact (step_of_takes ht).trans (onComplete_lastKeyByte_rests hact hreq)
  · exact (step_of_takes ht).trans (onComplete_lastKeyByte_chains hact first)

/-- Settles O39: every step of the range has its payload byte. -/
theorem handlerSendsPayloadByte : Obligations.HandlerSendsPayloadByte := by
  unfold Obligations.HandlerSendsPayloadByte
  intro s r st ht hact last
  obtain ⟨b, hb⟩ := fbByte_exists s.fb (i := st.toNat) (by omega)
  exact ⟨b, hb, (step_of_takes ht).trans (onComplete_payload hact last hb)⟩

/-- Settles O40: both steps are `Finish`, which rests or chains. -/
theorem handlerFinishesCommand : Obligations.HandlerFinishesCommand := by
  unfold Obligations.HandlerFinishesCommand
  intro s r c ht hact
  exact ⟨fun hreq => (step_of_takes ht).trans (onComplete_rests hact hreq),
    fun k first => (step_of_takes ht).trans (onComplete_chains hact first)⟩

/-- Settles O41: each check, at the values of `ACT` where those before it pass. -/
theorem handlerFaultChecks : Obligations.HandlerFaultChecks := by
  unfold Obligations.HandlerFaultChecks
  intro s r ht
  refine ⟨fun hact => ?_, fun st c hact => ?_, fun k st c hact hle => ?_, fun st c hact first last hr => ?_⟩
  · exact (step_of_takes ht).trans (onComplete_idle hact)
  · exact (step_of_takes ht).trans (onComplete_badKind hact)
  · exact (step_of_takes ht).trans (onComplete_outOfRange hact hle)
  · subst hr
    exact (step_of_takes ht).trans (onComplete_missingByte hact first last)

/-! ### The wire bytes (30_encoding.md R66 to R68) -/

/-- Settles O31: on the bus, the meaning of a wire byte is the transport's completion. -/
theorem wireByteOnBusIsSent : Obligations.WireByteOnBusIsSent := by
  unfold Obligations.WireByteOnBusIsSent
  intro i b s he hx
  rw [exec_onBus he hx, transportComplete, hx]

/-- With its event pending at step 0, an opcode byte is `OnComplete` of that event. -/
theorem wireOpcode_due {b : Byte} {k : Kind} {s : State} {r : Option Byte} {c : BitVec 5}
    (hact : s.act = .busy (kindCode k) 0 c) (hevt : s.evt = .done r) (hx : s.xfer = .none) :
    wireOpcode b k s = onComplete r { s with evt := .none } := by
  simp [wireOpcode, onBus, hx, openingStep, hact, enterHandler, hevt]

/-- Settles O10: the handler's turn and the handler phase of a wire byte are the same `OnComplete`. -/
theorem handlerTurnTakesOpcodeStep : Obligations.HandlerTurnTakesOpcodeStep := by
  unfold Obligations.HandlerTurnTakesOpcodeStep
  intro s r cursor enabled brightness ht hx
  have ⟨_, hevt⟩ := ht
  refine ⟨fun hact => ?_, fun hact => ?_, fun hact => ?_⟩
  · exact (step_of_takes ht).trans (wireOpcode_due (s := consumeTurn s) hact hevt hx).symm
  · exact (step_of_takes ht).trans (wireOpcode_due (s := consumeTurn s) hact hevt hx).symm
  · exact (step_of_takes ht).trans (wireOpcode_due (s := consumeTurn s) hact hevt hx).symm

/-- Settles O32: the handler phase is `Finish`, which rests or chains. -/
theorem displayControlStepFinishes : Obligations.DisplayControlStepFinishes := by
  unfold Obligations.DisplayControlStepFinishes
  intro enabled brightness s r cursor hact hevt hx
  exact ⟨fun hreq => (wireOpcode_due hact hevt hx).trans (onComplete_rests (.inl hact) hreq),
    fun k first => (wireOpcode_due hact hevt hx).trans (onComplete_chains (.inl hact) first)⟩

/-- Settles O33: the handler phase is step 0 of ReadKeys. -/
theorem readDataStepSwitchesToReceive : Obligations.ReadDataStepSwitchesToReceive := by
  unfold Obligations.ReadDataStepSwitchesToReceive
  intro s r cursor hact hevt hx
  exact (wireOpcode_due hact hevt hx).trans (onComplete_readSent hact)

/-- Settles O34: payload byte 0 is the low byte of plane a. -/
theorem writeDataStepSendsFirstByte : Obligations.WriteDataStepSendsFirstByte := by
  unfold Obligations.WriteDataStepSendsFirstByte
  intro s r hact hevt hx
  have first : fbByte s.fb 0 = some (field s.fb.a 0 8) := rfl
  have sent := onComplete_payload (s := { s with evt := .none }) (r := r) hact (by decide) first
  exact (wireOpcode_due hact hevt hx).trans sent

/-! ### The transport's turn -/

section
variable {s : State} {r : Byte}

theorem step_sends {b : Byte} (hf : s.fault = none) (hn : nextTurn s = .transport r) (hx : s.xfer = .tx b) :
    step s =
      .next { s with
        evt := .done none
        xfer := .none
        agenda := s.agenda.tail
        tick := s.tick + 1 } := by
  rw [step_transport hf hn (by simp [hx]), transportComplete, consumeTurn_xfer, hx]
  rfl

theorem step_receives (hf : s.fault = none) (hn : nextTurn s = .transport r) (hx : s.xfer = .rx) :
    step s =
      .next { s with
        evt := .done (some r)
        xfer := .none
        trace := s.trace ++ [.rx r]
        agenda := s.agenda.tail
        tick := s.tick + 1 } := by
  rw [step_transport hf hn (by simp [hx]), transportComplete, consumeTurn_xfer, hx]
  rfl

end

/-- Settles O35: the completion of a transmission, of a reception, and when there is one. -/
theorem transportCompletes : Obligations.TransportCompletes := by
  unfold Obligations.TransportCompletes
  intro s r ⟨hf, hn⟩
  refine ⟨fun b hx => step_sends hf hn hx, fun hx => step_receives hf hn hx, ?_⟩
  simp [isEnabled, isTransferring, hf]

end Sys2Proof.Machine
end

section
/-! PROOFS. Whole transfers (41_transfer.md R90, R91): a round is a turn of the transport and then one of the
handler, and each command is the sequence of its rounds. -/

namespace Sys2Proof.Machine

/-! ### A round -/

section
variable {s : State} {rest : List Turn} {n : Nat}

/-- The transport raises an event, and the handler takes it. -/
theorem run_round {u v : State} {received : Option Byte} (completed : step s = .next u)
    (hf : u.fault = none) (turn : nextTurn u = .handler) (hevt : u.evt = .done received)
    (taken : onComplete received { consumeTurn u with evt := .none } = .next v) :
    core.run (n + 2) s = core.run n v :=
  (run_of_next completed (n + 1)).trans (run_of_next ((step_handler hf turn hevt).trans taken) n)

/-- A byte is sent, and the handler takes its event. -/
theorem run_sendRound {u : State} {b r : Byte} (hf : s.fault = none) (hx : s.xfer = .tx b)
    (ha : s.agenda = .transport r :: .handler :: rest)
    (taken : onComplete none { s with evt := .none, xfer := .none, agenda := rest, tick := s.tick + 2 } =
      .next u) :
    core.run (n + 2) s = core.run n u := by
  have turn : nextTurn s = .transport r := by simp [nextTurn, ha]
  exact run_round (step_sends hf turn hx) hf (by simp [nextTurn, ha]) rfl
    (by simpa [consumeTurn, ha] using taken)

/-- The byte `r` is received, and the handler takes its event. -/
theorem run_receiveRound {u : State} {r : Byte} (hf : s.fault = none) (hx : s.xfer = .rx)
    (ha : s.agenda = .transport r :: .handler :: rest)
    (taken : onComplete (some r)
      { s with
        evt := .none
        xfer := .none
        trace := s.trace ++ [.rx r]
        agenda := rest
        tick := s.tick + 2 } = .next u) :
    core.run (n + 2) s = core.run n u := by
  have turn : nextTurn s = .transport r := by simp [nextTurn, ha]
  exact run_round (step_receives hf turn hx) hf (by simp [nextTurn, ha]) rfl
    (by simpa [consumeTurn, ha] using taken)

/-- A transfer has ended after `n` turns: the block is idle and deselected, the trace has gained `events` and the
deselection. -/
def transferEnded (events : List BusEvent) (rest : List Turn) (n : Nat) (s : State) : State :=
  { s with
    act := .idle
    cs := false
    xfer := .none
    evt := .none
    trace := s.trace ++ events ++ [.deselect]
    agenda := rest
    tick := s.tick + n }

/-- The last round of WriteConfig and of WriteSegments. -/
theorem run_lastRound {b r : Byte} {c : BitVec 5} (hf : s.fault = none) (hreq : s.req = 0)
    (hact : s.act = .busy (kindCode .wc) 0 c ∨ s.act = .busy (kindCode .ws) 16 c) (hx : s.xfer = .tx b)
    (ha : s.agenda = .transport r :: .handler :: rest) :
    core.run 2 s = .next (transferEnded [] rest 2 s) := by
  rw [run_sendRound (n := 0) hf hx ha (onComplete_rests hact hreq), transferEnded, List.append_nil]
  rfl

end

theorem byteSteps_succ (n : Nat) : byteSteps (n + 1) = .transport 0 :: .handler :: byteSteps n := by
  simp [byteSteps, List.replicate_succ]

/-- Settles O56: the one round of a WriteConfig is its last. -/
theorem writeConfigRunsOneEvent : Obligations.WriteConfigRunsOneEvent := by
  unfold Obligations.WriteConfigRunsOneEvent
  intro s b rest hf hreq hact hx ha
  refine (run_lastRound hf hreq (.inl hact) hx (rest := rest) ha).trans ?_
  rw [transferEnded, List.append_nil]

/-! ### ReadKeys -/

/-- Three bytes staged in their places are the whole staging register. -/
theorem staged_bytes (v : BitVec 24) (k0 k1 k2 : Byte) :
    setByteAt (setByteAt (setByteAt v 0 k0) 1 k1) 2 k2 = k2 ++ k1 ++ k0 := by
  rw [← append_bytes (setByteAt _ 2 k2)]
  simp [byteAt_setByteAt]

/-- The word committed above three staged bytes. -/
theorem append_staged {b k0 k1 k2 : Byte} {v : BitVec 24} (staged : v = k2 ++ k1 ++ k0) :
    b ++ byteAt v 2 ++ byteAt v 1 ++ byteAt v 0 = b ++ k2 ++ k1 ++ k0 := by
  rw [← append_kstage, staged]
  exact append_bytes_assoc b k2 k1 k0

section
variable {s : State} {rest : List Turn} {n : Nat}

theorem run_readRound {b r : Byte} {c : BitVec 5} (hf : s.fault = none)
    (hact : s.act = .busy (kindCode .rk) 0 c) (hx : s.xfer = .tx b)
    (ha : s.agenda = .transport r :: .handler :: rest) :
    core.run (n + 2) s =
      core.run n { s with
        evt := .none
        rxmode := true
        xfer := .rx
        act := .busy (kindCode .rk) 1 0
        trace := s.trace ++ [.rxOn, .rxStart]
        agenda := rest
        tick := s.tick + 2 } :=
  run_sendRound hf hx ha (onComplete_readSent hact)

theorem run_keyRound {r : Byte} {step c : BitVec 5} (hf : s.fault = none)
    (hact : s.act = .busy (kindCode .rk) step c) (first : 1 ≤ step.toNat) (last : step.toNat ≤ 3)
    (hc : c.toNat = step.toNat - 1) (hx : s.xfer = .rx)
    (ha : s.agenda = .transport r :: .handler :: rest) :
    core.run (n + 2) s =
      core.run n { s with
        evt := .none
        kstage := setByteAt s.kstage c.toNat r
        xfer := .rx
        act := .busy (kindCode .rk) (step + 1) (c + 1)
        trace := s.trace ++ [.rx r, .rxStart]
        agenda := rest
        tick := s.tick + 2 } := by
  rw [run_receiveRound hf hx ha (onComplete_keyByte hact first last hc)]
  simp only [List.append_assoc, List.cons_append, List.nil_append]

theorem run_lastKeyRound {r k0 k1 k2 : Byte} {c : BitVec 5} (hf : s.fault = none) (hreq : s.req = 0)
    (hact : s.act = .busy (kindCode .rk) 4 c) (hx : s.xfer = .rx)
    (staged : s.kstage = k2 ++ k1 ++ k0) (ha : s.agenda = .transport r :: .handler :: rest) :
    core.run 2 s =
      .next { transferEnded [.rx r, .rxOff] rest 2 s with
        keys := r ++ k2 ++ k1 ++ k0
        rxmode := false } := by
  rw [run_receiveRound (n := 0) hf hx ha (onComplete_lastKeyByte_rests hact hreq), append_staged staged]
  simp only [transferEnded, List.append_assoc, List.cons_append, List.nil_append]
  rfl

end

/-- Settles O57: the read-data byte's round, three rounds that stage a byte each, and the commit. -/
theorem readKeysRunsFiveEvents : Obligations.ReadKeysRunsFiveEvents := by
  unfold Obligations.ReadKeysRunsFiveEvents
  intro s b r k0 k1 k2 k3 rest hf hreq hact hx ha
  refine (run_readRound hf hact hx ha).trans ?_
  refine Eq.trans (run_keyRound hf rfl (by decide) (by decide) (by decide) rfl rfl) ?_
  refine Eq.trans (run_keyRound hf rfl (by decide) (by decide) (by decide) rfl rfl) ?_
  refine Eq.trans (run_keyRound hf rfl (by decide) (by decide) (by decide) rfl rfl) ?_
  refine Eq.trans (run_lastKeyRound hf hreq rfl rfl (staged_bytes s.kstage k0 k1 k2) rfl) ?_
  simp [transferEnded, staged_bytes, Nat.add_assoc]

/-! ### WriteSegments -/

theorem memRead_succ {fb : Framebuffer} {addr n : Nat} {b : Byte} {bs : List Byte}
    (hb : fbByte fb addr = some b) (hbs : memRead fb (addr + 1) n = some bs) :
    memRead fb addr (n + 1) = some (b :: bs) := by
  have shift : (fun k => fbByte fb (addr + k)) ∘ Nat.succ = fun k => fbByte fb (addr + 1 + k) :=
    funext fun k => congrArg (fbByte fb) (Nat.add_right_comm addr k 1)
  rw [memRead] at hbs
  simp [memRead, List.range_succ_eq_map, hb, shift, hbs]

theorem run_payloadRound {s : State} {b b' r : Byte} {step : BitVec 5} {rest : List Turn} {n : Nat}
    (hf : s.fault = none)
    (hact : s.act = .busy (kindCode .ws) step step) (last : step.toNat ≤ 15)
    (hb : fbByte s.fb step.toNat = some b') (hx : s.xfer = .tx b)
    (ha : s.agenda = .transport r :: .handler :: rest) :
    core.run (n + 2) s =
      core.run n { s with
        evt := .none
        xfer := .tx b'
        act := .busy (kindCode .ws) (step + 1) (step + 1)
        trace := s.trace ++ [.tx b']
        agenda := rest
        tick := s.tick + 2 } :=
  run_sendRound hf hx ha (onComplete_payload hact last hb)

/-- From step 16 - `m` on, a WriteSegments sends the `m` payload bytes that are left and ends. -/
theorem run_writeSegments (m : Nat) (rest : List Turn) : ∀ {s : State} {b : Byte} {step : BitVec 5},
    s.fault = none → s.req = 0 → s.act = .busy (kindCode .ws) step step → step.toNat + m = 16 →
    s.xfer = .tx b → s.agenda = byteSteps (m + 1) ++ rest →
    ∃ payload, memRead s.fb step.toNat m = some payload ∧
      core.run (2 * m + 2) s = .next (transferEnded (payload.map .tx) rest (2 * m + 2) s) := by
  induction m with
  | zero =>
    intro s b step hf hreq hact hm hx ha
    obtain rfl : step = 16 := BitVec.eq_of_toNat_eq hm
    exact ⟨[], rfl, run_lastRound hf hreq (.inr hact) hx ha⟩
  | succ m ih =>
    intro s b step hf hreq hact hm hx ha
    obtain ⟨b', hb⟩ := fbByte_exists s.fb (i := step.toNat) (by omega)
    have hstep := toNat_add_one (step := step) (by omega)
    rw [byteSteps_succ] at ha
    have round := run_payloadRound (n := 2 * m + 2) hf hact (by omega) hb hx ha
    obtain ⟨payload, hread, hrun⟩ := ih (step := step + 1) (s := { s with
        evt := .none
        xfer := .tx b'
        act := .busy (kindCode .ws) (step + 1) (step + 1)
        trace := s.trace ++ [.tx b']
        agenda := byteSteps (m + 1) ++ rest
        tick := s.tick + 2 }) hf hreq rfl (by omega) rfl rfl
    rw [hstep] at hread
    refine ⟨b' :: payload, memRead_succ hb hread, (round.trans hrun).trans ?_⟩
    have turns : s.tick + 2 + (2 * m + 2) = s.tick + (2 * (m + 1) + 2) := by omega
    simp [transferEnded, turns]

/-- Settles O58: all sixteen payload bytes are left at step 0. -/
theorem writeSegmentsRunsWholeFrame : Obligations.WriteSegmentsRunsWholeFrame := by
  unfold Obligations.WriteSegmentsRunsWholeFrame
  intro s b rest hf hreq hact hx ha
  exact run_writeSegments 16 rest hf hreq hact rfl hx ha

end Sys2Proof.Machine
end

section
/-! PROOFS. The framebuffer (42_framebuffer.md): what WRITE_DIGIT answers, and the two views of the planes, by
columns and by payload bytes. -/

namespace Sys2Proof.Machine

/-! ### Payload bytes against columns -/

theorem getLsbD_byteAt {n : Nat} (v : BitVec n) (i : Nat) {k : Nat} (hk : k < 8) :
    (byteAt v i).getLsbD k = v.getLsbD (8 * i + k) := by
  simp [byteAt, hk]

/-- Settles O25: digit `d` is bit `d mod 8` of byte `d / 8` of its plane, and bit `s` of the decoded column. -/
theorem transposeLaw : Obligations.TransposeLaw := by
  unfold Obligations.TransposeLaw
  intro fb s d hd
  refine ⟨byteAt (plane fb s) (d / 8), fbByte_plane fb s (d / 8) (by omega), ?_⟩
  calc (byteAt (plane fb s) (d / 8)).getLsbD (d % 8)
      = (plane fb s).getLsbD (8 * (d / 8) + d % 8) := getLsbD_byteAt _ _ (by omega)
    _ = fbBit fb s d := by rw [Nat.div_add_mod, fbBit]
    _ = (decodeDigit fb d).getLsbD s := (getLsbD_decodeDigit fb d s).symm

/-! ### What a column write leaves alone -/

theorem decodeDigit_out_of_range (fb : Framebuffer) {d : Nat} (hd : 16 ≤ d) : decodeDigit fb d = 0 := by
  apply BitVec.eq_of_getLsbD_eq
  intro i hi
  calc (decodeDigit fb d).getLsbD i = fbBit fb ⟨i, hi⟩ d := getLsbD_decodeDigit fb d ⟨i, hi⟩
    _ = (0 : Byte).getLsbD i := by simp [fbBit_out_of_range fb _ d hd]

/-- `decodeDigit_writeColumn_other` for every slot, those that no plane has included. -/
theorem decodeDigit_writeColumn_of_ne (fb : Framebuffer) (g : Byte) {d e : Nat} (h : e ≠ d) :
    decodeDigit (writeColumn fb d g) e = decodeDigit fb e := by
  by_cases he : e < 16
  · exact decodeDigit_writeColumn_other fb d e g he h
  · rw [decodeDigit_out_of_range _ (by omega), decodeDigit_out_of_range _ (by omega)]

/-- A bit set in one half of a plane leaves the other half. -/
theorem byteAt_setBit_other (v : BitVec 16) (on : Bool) {d j : Nat} (hj : j < 2) (h : j ≠ d / 8) :
    byteAt (setBit v d on) j = byteAt v j := by
  apply BitVec.eq_of_getLsbD_eq
  intro k hk
  rw [getLsbD_byteAt _ _ hk, getLsbD_byteAt _ _ hk, getLsbD_setBit _ _ _ _ (by omega), if_neg (by omega)]

theorem fbByte_writeColumn_other (fb : Framebuffer) (g : Byte) {d i : Nat} (h : i % 2 ≠ d / 8) :
    fbByte (writeColumn fb d g) i = fbByte fb i := by
  simp [fbByte, writeColumn, byteAt_setBit_other _ _ (Nat.mod_lt i two_pos) h]

/-! ### WRITE_DIGIT (R94) -/

theorem decode_writeDigitWord (pos low : BitVec 8) :
    decode (.cmd32 (0x3#4 ++ 0#12 ++ pos ++ low)) = .instr (.writeDigit pos (low.signExtend 16)) := by
  have h := decode_encode_writeDigit pos (low.signExtend 16) (digitValueFits_signExtend low)
  rwa [encode, setWidth_signExtend_byte] at h

theorem exec_writeDigit_outside {pos : BitVec 8} (val : BitVec 16) (s : State) (outside : 9 < pos.toNat) :
    exec (.writeDigit pos val) s = .next (retire s) := by
  simp [exec, execWriteDigit, outside]

theorem exec_writeDigit_inside {pos : BitVec 8} (val : BitVec 16) (s : State) (inside : pos.toNat ≤ 9) :
    exec (.writeDigit pos val) s =
      .next (retire { s with fb := writeColumn s.fb pos.toNat (digitPattern s.params.glyph val) }) := by
  simp [exec, execWriteDigit, Nat.not_lt.2 inside]

/-- Settles O24: in 0..9 the new framebuffer is the old one with column `pos` written, whatever is in flight. -/
theorem writeDigitRendersColumn : Obligations.WriteDigitRendersColumn := by
  unfold Obligations.WriteDigitRendersColumn
  intro pos val s
  refine ⟨decode_writeDigitWord pos, exec_writeDigit_outside val s, fun inside => ?_⟩
  exact ⟨writeColumn s.fb pos.toNat (digitPattern s.params.glyph val), exec_writeDigit_inside val s inside,
    decodeDigit_writeColumn _ _ _ (by omega), fun _ => decodeDigit_writeColumn_of_ne _ _,
    fun _ => fbByte_writeColumn_other _ _⟩

/-! ### The decimal point plane -/

theorem getLsbD_seven_glyphOf {table : Vector Byte 16} (ok : glyphTableOk table = true) {v : Nat}
    (hv : v < 16) : (glyphOf table v).getLsbD 7 = false := by
  have dark : ∀ v < 16, (glyphOf table v).getLsbD 7 = false := by
    simpa using (Bool.and_eq_true_iff.1 ok).2
  exact dark v hv

/-- The blank is dark everywhere, and a value of 0..15 is one of the table's entries. -/
theorem getLsbD_seven_digitPattern {table : Vector Byte 16} (ok : glyphTableOk table = true) (val : BitVec 16) :
    (digitPattern table val).getLsbD 7 = false := by
  unfold digitPattern
  split
  next hval => exact getLsbD_seven_glyphOf ok (by have := val.toInt_eq_toNat_cond; omega)
  next => rfl

/-- Only the glyph's bit 7 reaches the decimal point plane. -/
theorem dp_writeColumn_eq_zero {fb : Framebuffer} (dark : fb.dp = 0) (d : Nat) {g : Byte}
    (hg : g.getLsbD 7 = false) : (writeColumn fb d g).dp = 0 := by
  calc (writeColumn fb d g).dp = setBit fb.dp d (g.getLsbD 7) := rfl
    _ = setBit 0 d false := by rw [dark, hg]
    _ = 0 := by simp [setBit]

theorem FbMove.dp_eq_zero {glyph : Vector Byte 16} {fb fb' : Framebuffer} (h : FbMove glyph fb fb')
    (ok : glyphTableOk glyph = true) (dark : fb.dp = 0) : fb'.dp = 0 := by
  cases h with
  | kept => exact dark
  | cleared => rfl
  | digitWritten pos val _ => exact dp_writeColumn_eq_zero dark _ (getLsbD_seven_digitPattern ok val)

/-- Settles O48: INIT clears the plane, and WRITE_DIGIT writes into it the bit 7 of a glyph or of the blank. -/
theorem decimalPointStaysDark : Obligations.DecimalPointStaysDark := by
  unfold Obligations.DecimalPointStaysDark
  intro s t ok dark h
  exact (step_fbMove h).dp_eq_zero ok dark

end Sys2Proof.Machine
end

section
/-! PROOFS. The key snapshot and the display configuration (43_keys_config.md): the two configuration writes as
REQUESTs of WriteConfig, and GET_KEYS in one access and in four. -/

namespace Sys2Proof.Machine

/-! ### A request of WriteConfig, case by case -/

/-- WriteConfig goes first whenever it is requested (40_arbiter.md R71). -/
theorem selectKind_or_wc : ∀ x : BitVec 3, selectKind (x ||| 0b001) = some .wc := by decide

/-- Marked and at once started, WriteConfig is no longer requested, and the other kinds are as they were. -/
theorem started_wc_unmarked : ∀ x : BitVec 3,
    (x ||| 0b001) &&& ~~~(kindBit (kindCode .wc)) = x &&& 0b110 := by decide

/-- The code of no other kind masks the bit of WriteConfig, the illegal code 3 included. -/
theorem wc_kept_of_ne : ∀ code : BitVec 2, code ≠ kindCode .wc →
    (0b001 : BitVec 3) &&& ~~~(kindBit code) = 0b001 := by decide

/-- The next `Finish` starts a WriteConfig that waits, and sends `CFG` as it is then. -/
theorem finish_sends_config {s : State} (next : selectKind s.req = some .wc) :
    (finish s).act = .busy 0 0 0 ∧ (finish s).req = s.req &&& 0b110 ∧
      (finish s).xfer = .tx (displayControlByte s.cfg.enabled s.cfg.brightness) := by
  refine ⟨finish_act_of_select next, finish_req_of_select next, ?_⟩
  rw [finish_chains next, start_xfer]
  rfl

/-- A request of WriteConfig in an idle block, with WriteConfig in flight, and with another kind in flight. -/
theorem exec_requestConfig_cases (s : State) :
    (s.act = .idle →
      exec (.request 0b001) s =
        .next { s with
          req := s.req &&& 0b110
          act := .busy 0 0 0
          cs := true
          xfer := .tx (displayControlByte s.cfg.enabled s.cfg.brightness)
          trace := s.trace ++ [.select, .tx (displayControlByte s.cfg.enabled s.cfg.brightness)]
          hpc := s.hpc + 1 }) ∧
    (∀ st c, s.act = .busy (kindCode .wc) st c →
      exec (.request 0b001) s = .next { s with hpc := s.hpc + 1 }) ∧
    (∀ code st c, s.act = .busy code st c → code ≠ kindCode .wc →
      let t : State := { s with req := s.req ||| 0b001, hpc := s.hpc + 1 }
      exec (.request 0b001) s = .next t ∧
      (finish t).act = .busy 0 0 0 ∧ (finish t).req = t.req &&& 0b110 ∧
      (finish t).xfer = .tx (displayControlByte s.cfg.enabled s.cfg.brightness)) := by
  refine ⟨fun idle => ?_, fun st c active => activeKindIsDropped s .wc st c active,
    fun code st c busy other => ⟨?_, finish_sends_config (selectKind_or_wc s.req)⟩⟩
  · rw [exec_request_starts idle (selectKind_or_wc s.req), ← started_wc_unmarked]
    rfl
  · rw [exec_request_busy busy, wc_kept_of_ne code other]

/-! ### SET_ENABLED (R100) and SET_BRIGHTNESS (R101) -/

theorem exec_setEnabled (en : Bool) (s : State) :
    exec (.setEnabled en) s = exec (.request 0b001) { s with cfg := ⟨en, s.cfg.brightness⟩ } := rfl

theorem exec_setBrightness (level : BitVec 3) (s : State) :
    exec (.setBrightness level) s = exec (.request 0b001) { s with cfg := ⟨s.cfg.enabled, level⟩ } := rfl

/-- Settles O22: the cases of a request of WriteConfig, in the state that has the new `CFG`. -/
theorem setEnabledResult : Obligations.SetEnabledResult := by
  unfold Obligations.SetEnabledResult
  intro en s
  rw [exec_setEnabled]
  exact ⟨decode_encode_setEnabled en, exec_requestConfig_cases { s with cfg := ⟨en, s.cfg.brightness⟩ }⟩

/-- Settles O23: the cases of a request of WriteConfig, in the state that has the new `CFG`. -/
theorem setBrightnessResult : Obligations.SetBrightnessResult := by
  unfold Obligations.SetBrightnessResult
  intro level s
  rw [exec_setBrightness]
  exact ⟨decode_encode_setBrightness level, exec_requestConfig_cases { s with cfg := ⟨s.cfg.enabled, level⟩ }⟩

/-! ### GET_KEYS in one access (R97) -/

theorem exec_getKeys_atomic {s : State} (atomic : s.params.snapshotReadAtomic = true) :
    exec .getKeys s = .next { s with rdata := s.keys, hpc := s.hpc + 1 } := by
  rw [exec, execGetKeys, if_pos atomic, retire]

/-- Settles O26: the reset state reads its snapshot in one access, and the snapshot is 0. -/
theorem getKeysReadsSnapshot : Obligations.GetKeysReadsSnapshot := by
  unfold Obligations.GetKeysReadsSnapshot
  exact ⟨by decide, ⟨_, exec_getKeys_atomic rfl, rfl⟩, fun s => exec_getKeys_atomic⟩

/-! ### GET_KEYS split into four reads (R98) -/

theorem exec_getKeys_split_more {s : State} (split : s.params.snapshotReadAtomic = false) (more : s.gkPos ≠ 3) :
    exec .getKeys s = .next (readKeyByte s) := by
  rw [exec, execGetKeys, if_neg (by simp [split]), if_neg more]

theorem exec_getKeys_split_last {s : State} (split : s.params.snapshotReadAtomic = false) (last : s.gkPos = 3) :
    exec .getKeys s = .next (retire (readKeyByte s)) := by
  rw [exec, execGetKeys, if_neg (by simp [split]), if_pos last]

/-- Settles O27: `HPC` is advanced at the last position alone, and a byte set is read back among the old ones. -/
theorem getKeysSplitStep : Obligations.GetKeysSplitStep := by
  unfold Obligations.GetKeysSplitStep
  intro s split
  have inWord : 8 * s.gkPos.toNat + 8 ≤ 32 := by have := s.gkPos.isLt; omega
  refine ⟨(readKeyByte s).rdata, ?_, ?_, fun j hj other => ?_⟩
  · by_cases last : s.gkPos = 3
    · rw [if_pos last, exec_getKeys_split_last split last]
      rfl
    · rw [if_neg last, exec_getKeys_split_more split last]
      rfl
  · rw [readKeyByte_rdata, byteAt_setByteAt _ _ _ _ inWord inWord, if_pos rfl]
  · rw [readKeyByte_rdata, byteAt_setByteAt _ _ _ _ inWord (by omega), if_neg other]

theorem append_bytes_high (v : BitVec 32) : byteAt v 3 ++ byteAt v 2 = field v 16 16 := field_adjacent v 16 8 8

theorem append_bytes_low (v : BitVec 32) : byteAt v 1 ++ byteAt v 0 = field v 0 16 := field_adjacent v 0 8 8

/-- Nothing is left of a word whose low half is written from `old` and whose high half from `new`. -/
theorem setByteAt_halves (v old new : BitVec 32) :
    setByteAt (setByteAt (setByteAt (setByteAt v 0 (byteAt old 0)) 1 (byteAt old 1)) 2 (byteAt new 2)) 3
      (byteAt new 3) = field new 16 16 ++ field old 0 16 := by
  generalize hw : setByteAt _ 3 (byteAt new 3) = w
  have high : field w 16 16 = field new 16 16 := by
    rw [← append_bytes_high, ← append_bytes_high, ← hw]
    simp [byteAt_setByteAt]
  have low : field w 0 16 = field old 0 16 := by
    rw [← append_bytes_low, ← append_bytes_low, ← hw]
    simp [byteAt_setByteAt]
  rw [← high, ← low, field_adjacent w 0 16 16, field_self]

/-- Settles O28: the first two reads copy the low half of the old `KEYS`, the last two the high half of `new`. -/
theorem getKeysSplitMix : Obligations.GetKeysSplitMix := by
  unfold Obligations.GetKeysSplitMix
  intro s new split pos
  refine ⟨readKeyByte s, readKeyByte (readKeyByte s),
    readKeyByte { readKeyByte (readKeyByte s) with keys := new }, _,
    exec_getKeys_split_more split (by simp [pos]), exec_getKeys_split_more split (by simp [pos]),
    exec_getKeys_split_more split (by simp [pos]), exec_getKeys_split_last split (by simp [pos]), ?_,
    by simp [pos], rfl, rfl⟩
  simp [pos, setByteAt_halves]

end Sys2Proof.Machine
end

section
/-! PROOFS. INIT and the periodic requests (44_init_refresh.md): a trigger's firing as a REQUEST (R103, R104), what
INIT leaves (R102), and the counting of the firings that the timing contract names (R105). -/

namespace Sys2Proof.Machine

/-! ### The triggers (R103, R104) -/

theorem isEnabled_rescan_iff {s : State} : isEnabled .rescan s = true ↔ s.rescanMs ≠ 0 ∧ s.fault = none := by
  simp [isEnabled, and_comm]

theorem isEnabled_repaint_iff {s : State} : isEnabled .repaint s = true ↔ s.repaintMs ≠ 0 ∧ s.fault = none := by
  simp [isEnabled, and_comm]

/-- `HPC` is all that a REQUEST changes besides marking and starting its kinds. -/
theorem retire_requestKinds_hpc (mask : BitVec 3) (s : State) :
    { retire (requestKinds mask s) with hpc := s.hpc } = requestKinds mask s := by
  rw [← requestKinds_hpc mask s]
  rfl

/-- An enabled turn that marks the kinds of `mask` answers what the REQUEST of `mask` does, `HPC` apart. -/
theorem step_fires_request {s : State} {t : Turn} {mask : BitVec 3} (next : nextTurn s = t)
    (enabled : isEnabled t s = true)
    (fires : takeTurn t (consumeTurn s) = .next (requestKinds mask (consumeTurn s))) :
    ∃ u, exec (.request mask) (consumeTurn s) = .next u ∧ step s = .next { u with hpc := s.hpc } := by
  refine ⟨_, exec_request mask (consumeTurn s), ?_⟩
  rw [step_of_turn next enabled, fires, ← consumeTurn_hpc s, retire_requestKinds_hpc]

/-- Settles O42: in each clause the trigger is enabled, and its turn marks the kind of the mask. -/
theorem triggersRequest : Obligations.TriggersRequest := by
  unfold Obligations.TriggersRequest
  intro s
  refine ⟨isEnabled_rescan_iff, isEnabled_repaint_iff, fun ⟨sound, next⟩ interval => ?_,
    fun ⟨sound, next⟩ interval => ?_⟩
  · have enabled := isEnabled_rescan_iff.2 ⟨interval, sound⟩
    exact step_fires_request next enabled (if_pos enabled)
  · have enabled := isEnabled_repaint_iff.2 ⟨interval, sound⟩
    exact step_fires_request next enabled (if_pos enabled)

/-! ### INIT (R102) -/

/-- The registers as INIT sets them, before the request of WriteConfig and the advance of `HPC`. -/
def initialised (r p : BitVec 14) (s : State) : State :=
  { s with
    cfg := ⟨true, s.params.initBrightness⟩
    fb := clearedFb
    rescanMs := r
    repaintMs := p
    t0 := Config.now s.tick }

theorem exec_init_silent {s : State} (r p : BitVec 14) (silent : s.params.initRequestsConfig = false) :
    exec (.init r p) s = .next (retire (initialised r p s)) := by
  rw [exec, execInit, if_neg (by simp [silent]), initialised]

theorem exec_init_requests {s : State} (r p : BitVec 14) (requests : s.params.initRequestsConfig = true) :
    exec (.init r p) s = exec (.request 0b001) (initialised r p s) := by
  rw [exec, execInit, if_pos requests, exec_request, initialised]
  rfl

theorem fbByte_clearedFb {i : Nat} (hi : i < 16) : fbByte clearedFb i = some 0x00#8 := by
  have inPlanes : i / 2 < 8 := by omega
  rw [fbByte, dif_pos inPlanes, clearedFb, plane_fromPlanes]
  simp [byteAt]

/-- Settles O29: where INIT requests a WriteConfig, the cases of that request in the initialised state. -/
theorem initResult : Obligations.InitResult := by
  unfold Obligations.InitResult
  intro r p s
  obtain ⟨starts, dropped, queued⟩ := exec_requestConfig_cases (initialised r p s)
  refine ⟨Config.now s.tick, decode_encode_init r p, fun i => fbByte_clearedFb, fun off => ?_, fun off => ?_,
    exec_init_silent r p, fun requests idle => ?_, fun code st c requests busy => ?_⟩
  · rw [Bool.eq_false_iff, Ne, isEnabled_rescan_iff]
    exact fun ⟨interval, _⟩ => interval off
  · rw [Bool.eq_false_iff, Ne, isEnabled_repaint_iff]
    exact fun ⟨interval, _⟩ => interval off
  · rw [exec_init_requests r p requests]
    exact starts idle
  · rw [exec_init_requests r p requests]
    split_ifs with active
    · exact dropped st c (active ▸ busy)
    · obtain ⟨marked, -⟩ := queued code st c busy active
      exact marked

/-! ### The timing contract (R105) -/

theorem rescanTime_eq_some_iff {t0 r n t : Nat} : rescanTime t0 r n = some t ↔ (0 < r ∧ 1 ≤ n) ∧ t0 + n * r = t := by
  rw [rescanTime, Option.ite_none_right_eq_some, Option.some.injEq]

/-- The firings of the window are those numbered 1 to `w / r`. -/
theorem rescan_in_window_iff {t0 r w : Nat} (positive : 0 < r) (n : Nat) :
    (∃ t, rescanTime t0 r n = some t ∧ t0 < t ∧ t ≤ t0 + w) ↔ n ∈ Finset.Icc 1 (w / r) := by
  simp only [rescanTime_eq_some_iff, positive, true_and, Finset.mem_Icc, Nat.le_div_iff_mul_le positive]
  constructor
  · rintro ⟨t, ⟨later, rfl⟩, -, within⟩
    exact ⟨later, by omega⟩
  · rintro ⟨later, within⟩
    have := Nat.mul_pos later positive
    exact ⟨_, ⟨later, rfl⟩, by omega, by omega⟩

/-- A schedule whose firings in a window are those numbered 1 to `k` fires `k` times there. -/
theorem firingsIn_of_numbered {time : Nat → Option Nat} {start stop limit k : Nat} (within : k ≤ limit)
    (numbered : ∀ n, (∃ t, time n = some t ∧ start < t ∧ t ≤ stop) ↔ n ∈ Finset.Icc 1 k) :
    firingsIn time start stop limit = k := by
  have counted : firingsIn time start stop limit = (Finset.range (limit + 1) ∩ Finset.Icc 1 k).card := by
    rw [← Finset.filter_mem_eq_inter]
    refine congrArg List.length (List.filter_congr fun n _ => ?_)
    refine Bool.eq_iff_iff.2 (Iff.trans ?_ ((numbered n).trans decide_eq_true_iff.symm))
    cases time n <;> simp
  have inRange : Finset.Icc 1 k ⊆ Finset.range (limit + 1) := fun n hn => by
    rw [Finset.mem_Icc] at hn
    rw [Finset.mem_range]
    omega
  rw [counted, Finset.inter_eq_right.2 inRange, Nat.card_Icc, Nat.add_sub_cancel]

theorem repaintTime_zero {t0 r p : Nat} (rescans : 0 < r) (repaints : 0 < p) :
    repaintTime t0 r p 0 = some (t0 + r + r / 2) := by
  rw [repaintTime, if_neg (by omega), if_pos rescans, Nat.zero_mul, Nat.add_zero]

/-- Settles O59: `w / r` firings are numbered within the window, and the first is at `t0 + r`. -/
theorem cadenceCount : Obligations.CadenceCount := by
  unfold Obligations.CadenceCount
  intro t0 r w positive
  refine ⟨firingsIn_of_numbered (Nat.div_le_self w r) (rescan_in_window_iff positive),
    fun p first repaints isFirst => ?_⟩
  obtain ⟨-, rfl⟩ := rescanTime_eq_some_iff.1 isFirst
  rw [repaintTime_zero positive repaints, Nat.one_mul]

end Sys2Proof.Machine
end

section
/-! PROOFS. Faults and refusal (60_exceptions.md): what a step answers when no agent has one, that under the
invariants each agent's step answers a next state, and that a refusal leaves the other agents' steps as they are. -/

namespace Sys2Proof.Machine

/-! ### No agent has a step -/

section
variable {s : State}

theorem anyEnabled_of_fault {r : FaultReason} (hf : s.fault = some r) : anyEnabled s = false := by
  simp [anyEnabled, isEnabled, hf]

/-- Without a fault, no agent has a step exactly where each register that enables one is at rest. -/
theorem anyEnabled_eq_false_iff (hf : s.fault = none) :
    anyEnabled s = false ↔
      (s.refused = true ∨ s.program.length ≤ s.hpc) ∧ s.evt = .none ∧ s.xfer = .none ∧ s.rescanMs = 0 ∧
        s.repaintMs = 0 := by
  simp [anyEnabled, isEnabled, isPending, isTransferring, hf, and_assoc, imp_iff_not_or]

theorem step_of_noneEnabled (ha : anyEnabled s = false) : step s = quiescent s := by
  simp [step, advance, ha]

theorem quiescent_of_goodEnd (hf : s.fault = none) (hr : s.refused = false) (good : atGoodEnd s = true) :
    quiescent s = .next s := by
  simp [quiescent, hf, hr, good]

theorem quiescent_of_refused (hf : s.fault = none) (hr : s.refused = true) :
    quiescent s = .refused .reservedWord := by
  simp [quiescent, hf, hr]

end

/-- Settles O12: a fault disables every agent, and a step answers it. -/
theorem faultStopsEveryAgent : Obligations.FaultStopsEveryAgent := by
  unfold Obligations.FaultStopsEveryAgent
  intro s r hf
  rw [step_of_noneEnabled (anyEnabled_of_fault hf), quiescent, hf]

/-- Settles O13: no agent has a step there, and it is a good end. -/
theorem goodEndRests : Obligations.GoodEndRests := by
  unfold Obligations.GoodEndRests
  intro s quietState ⟨hf, hr⟩ hend hrescan hrepaint
  obtain ⟨hact, hreq, hxfer, hevt, -, -⟩ := quietState
  have quiet : anyEnabled s = false :=
    (anyEnabled_eq_false_iff hf).2 ⟨.inr hend.ge, hevt, hxfer, hrescan, hrepaint⟩
  have good : atGoodEnd s = true := by simp [atGoodEnd, hend, hact, hreq, hxfer, hevt, hf, hr]
  rw [step_of_noneEnabled quiet, quiescent_of_goodEnd hf hr good]

/-- Under the invariants a block with nothing in flight is idle, so its run ends well. -/
theorem StepInvariant.atGoodEnd {s : State} (h : StepInvariant s) (hpc : HpcInRange s)
    (hr : s.refused = false) (quiet : anyEnabled s = false) : atGoodEnd s = true := by
  obtain ⟨hend, hevt, hxfer, -, -⟩ := (anyEnabled_eq_false_iff h.noFault).1 quiet
  have hend : s.hpc = s.program.length := le_antisymm hpc (by simpa [hr] using hend)
  have idle : s.act = .idle := by
    by_contra busy
    obtain ⟨-, inFlight⟩ := h.busyIsFramed busy
    exact inFlight.2 hevt hxfer
  obtain ⟨hreq, -⟩ := h.idleIsQuiet idle
  simp [Machine.atGoodEnd, hend, idle, hreq, hxfer, hevt, h.noFault, hr]

/-! ### The agents' steps answer a next state -/

/-- A host command has a next state in every state. -/
theorem hostStep_answers (s : State) : ∃ t, hostStep s = .next t := by
  obtain ⟨-, e⟩ | ⟨_, -, e⟩ | ⟨i, w, -, hd, e⟩ := hostStep_cases s <;> rw [e]
  · exact ⟨_, rfl⟩
  · exact ⟨_, rfl⟩
  · obtain ⟨r, p, rfl⟩ | ⟨m, rfl⟩ | ⟨p, v, rfl⟩ | ⟨en, rfl⟩ | ⟨l, rfl⟩ | rfl := decodeHost_cases hd <;>
      exact ⟨_, rfl⟩

theorem rkMid_answers {c : BitVec 5} (room : c.toNat < 3) (step : BitVec 5) (r : Option Byte) (s : State) :
    ∃ t, rkMid step c r s = .next t := by
  cases r with
  | none => exact ⟨_, rfl⟩
  | some b => exact ⟨_, if_pos room⟩

theorem wsPayload_answers {c : BitVec 5} (payload : c.toNat < 16) (step : BitVec 5) (s : State) :
    ∃ t, wsPayload step c s = .next t := by
  obtain ⟨b, hb⟩ := fbByte_exists s.fb payload
  exact ⟨_, by rw [wsPayload, hb]⟩

/-- A cursor that follows a step in range names a byte, of the staging register or of the payload. -/
theorem handlerStep_answers {k : Kind} {step c : BitVec 5} (hlt : step.toNat < totalSteps k)
    (cursor : c.toNat = cursorAt k step.toNat) (r : Option Byte) (s : State) :
    ∃ t, handlerStep k step c r s = .next t := by
  cases k <;> simp only [handlerStep, totalSteps, cursorAt] at hlt cursor ⊢
  case wc => exact ⟨_, rfl⟩
  case rk =>
    split_ifs with h0 h4
    · exact ⟨_, rfl⟩
    · exact ⟨_, rfl⟩
    · have last : step.toNat ≠ 4 := toNat_ne (by decide) h4
      exact rkMid_answers (by omega) step r s
  case ws =>
    split_ifs with h16
    · exact ⟨_, rfl⟩
    · have last : step.toNat ≠ 16 := toNat_ne (by decide) h16
      exact wsPayload_answers (by omega) step s

/-- The pending event of a transfer is answered by the active command's step. -/
theorem InTransfer.onComplete_answers {k : Kind} {step c : BitVec 5} {s : State} (h : InTransfer k step c s)
    (r : Option Byte) :
    ∃ t, onComplete r { s with evt := .none } = .next t ∧ HandlerMove { s with evt := .none } k step c r t := by
  have due : StepDue { s with evt := .none } k step c := h.due
  have ⟨_, hlt⟩ := due
  obtain ⟨t, ht⟩ := handlerStep_answers hlt h.cursor r { s with evt := .none }
  exact ⟨t, (onComplete_of_due due).trans ht, handlerStep_move ht⟩

theorem StepInvariant.handlerTurn_answers {s : State} (h : StepInvariant s) :
    ∃ t, Machine.handlerTurn s = .next t := by
  cases hevt : s.evt with
  | none => exact ⟨s, by simp [Machine.handlerTurn, enterHandler, hevt]⟩
  | done r =>
    obtain ⟨-, ⟨-, -, -, hnone, -, -⟩ | ⟨k, step, c, hk⟩⟩ := stepInvariant_iff.1 h
    · simp [hevt] at hnone
    · obtain ⟨t, ht, -⟩ := hk.onComplete_answers r
      exact ⟨t, by simpa [Machine.handlerTurn, enterHandler, hevt] using ht⟩

theorem StepInvariant.takeTurn_answers {s : State} (h : StepInvariant s) (turn : Turn) :
    ∃ t, takeTurn turn s = .next t := by
  unfold takeTurn
  split_ifs
  · cases turn with
    | host => exact hostStep_answers s
    | handler => exact h.handlerTurn_answers
    | transport r => exact ⟨_, transportStep_eq r s⟩
    | rescan => exact ⟨_, rfl⟩
    | repaint => exact ⟨_, rfl⟩
  · exact ⟨s, rfl⟩

theorem StepInvariant.step_answers {s : State} (h : StepInvariant s) (ha : anyEnabled s = true) :
    ∃ t, step s = .next t := by
  have hturn : StepInvariant (consumeTurn s) := h.of_sameTransfer {}
  obtain ⟨t, ht⟩ := hturn.takeTurn_answers (nextTurn s)
  exact ⟨t, by simpa [step, advance, ha] using ht⟩

/-- Settles O44: an agent's step answers a next state, which meets the invariant and so has no fault; with no
agent's step left, the host was refused or the run is at a good end. -/
theorem invariantsExcludeFaults : Obligations.InvariantsExcludeFaults := by
  unfold Obligations.InvariantsExcludeFaults
  intro s h hpc
  cases ha : anyEnabled s with
  | true =>
    obtain ⟨t, ht⟩ := h.step_answers ha
    exact .inl ⟨t, ht, (stepKeepsInvariants s t h ht).noFault⟩
  | false =>
    rw [step_of_noneEnabled ha]
    cases hr : s.refused with
    | true => exact .inr ⟨quiescent_of_refused h.noFault hr, rfl⟩
    | false => exact .inl ⟨s, quiescent_of_goodEnd h.noFault hr (h.atGoodEnd hpc hr ha), h.noFault⟩

/-! ### A refusal and the other agents' steps -/

/-- The answer of a step, with the host refused in the state it leaves. -/
def withRefusal : Answer → Answer
  | .next t => .next (refuseWord t)
  | .fault r => .fault r
  | .refused r => .refused r

section
variable (s : State)

theorem dispatch_refuseWord : dispatch (refuseWord s) = refuseWord (dispatch s) := by
  unfold dispatch
  rw [refuseWord_req]
  split <;> rfl

theorem requestKinds_refuseWord (mask : BitVec 3) :
    requestKinds mask (refuseWord s) = refuseWord (requestKinds mask s) := by
  unfold requestKinds
  rw [refuseWord_act]
  split
  · exact dispatch_refuseWord { s with req := s.req ||| mask }
  · rfl

theorem finish_refuseWord : finish (refuseWord s) = refuseWord (finish s) :=
  dispatch_refuseWord { emit [.deselect] s with cs := false, act := .idle }

theorem transportComplete_refuseWord (r : Byte) :
    transportComplete r (refuseWord s) = refuseWord (transportComplete r s) := by
  unfold transportComplete
  rw [refuseWord_xfer]
  split <;> rfl

theorem rkMid_refuseWord (step c : BitVec 5) (r : Option Byte) :
    rkMid step c r (refuseWord s) = withRefusal (rkMid step c r s) := by
  unfold rkMid
  split
  · rfl
  · split <;> rfl

theorem rkFinal_refuseWord (r : Option Byte) : rkFinal r (refuseWord s) = refuseWord (rkFinal r s) := by
  cases r with
  | none => rfl
  | some b => exact finish_refuseWord (emit [.rxOff] { s with keys := b ++ s.kstage, rxmode := false })

theorem wsPayload_refuseWord (step c : BitVec 5) :
    wsPayload step c (refuseWord s) = withRefusal (wsPayload step c s) := by
  unfold wsPayload
  rw [refuseWord_fb]
  split <;> rfl

theorem handlerStep_refuseWord (k : Kind) (step c : BitVec 5) (r : Option Byte) :
    handlerStep k step c r (refuseWord s) = withRefusal (handlerStep k step c r s) := by
  have finishes : Host.Outcome.next (finish (refuseWord s)) = withRefusal (.next (finish s)) :=
    congrArg Host.Outcome.next (finish_refuseWord s)
  cases k <;> simp only [handlerStep]
  case wc => exact finishes
  case rk =>
    split_ifs
    · rfl
    · exact congrArg Host.Outcome.next (rkFinal_refuseWord s r)
    · exact rkMid_refuseWord s step c r
  case ws =>
    split_ifs
    · exact finishes
    · exact wsPayload_refuseWord s step c

theorem onComplete_refuseWord (r : Option Byte) :
    onComplete r (refuseWord s) = withRefusal (onComplete r s) := by
  unfold onComplete
  rw [refuseWord_act]
  split
  · rfl
  · split
    · rfl
    · split_ifs
      · rfl
      · exact handlerStep_refuseWord s _ _ _ r

theorem handlerTurn_refuseWord : handlerTurn (refuseWord s) = withRefusal (handlerTurn s) := by
  unfold handlerTurn enterHandler
  rw [refuseWord_evt]
  cases s.evt with
  | none => rfl
  | done r => exact onComplete_refuseWord { s with evt := .none } r

/-- No agent but the host reads `REFUSED`. -/
theorem isEnabled_refuseWord {turn : Turn} (other : turn ≠ .host) :
    isEnabled turn (refuseWord s) = isEnabled turn s := by
  cases turn with
  | host => exact absurd rfl other
  | _ => rfl

theorem takeTurn_refuseWord {turn : Turn} (other : turn ≠ .host) :
    takeTurn turn (refuseWord s) = withRefusal (takeTurn turn s) := by
  unfold takeTurn
  rw [isEnabled_refuseWord s other]
  split_ifs
  · cases turn with
    | host => exact absurd rfl other
    | handler => exact handlerTurn_refuseWord s
    | transport r =>
      simp only [transportStep_eq, transportComplete_refuseWord]
      rfl
    | rescan => exact congrArg Host.Outcome.next (requestKinds_refuseWord s _)
    | repaint => exact congrArg Host.Outcome.next (requestKinds_refuseWord s _)
  · rfl

/-- An enabled turn of another agent takes the same step, the host refused or not. -/
theorem step_refuseWord (other : nextTurn s ≠ .host) (he : isEnabled (nextTurn s) s = true) :
    step (refuseWord s) = withRefusal (step s) := by
  have he' : isEnabled (nextTurn s) (refuseWord s) = true := (isEnabled_refuseWord s other).trans he
  rw [step_of_turn rfl he, step_of_turn (s := refuseWord s) rfl he']
  exact takeTurn_refuseWord (consumeTurn s) other

end

theorem step_refusesWord {s : State} {why : Reserved} (hn : nextTurn s = .host)
    (he : isEnabled .host s = true) (hw : fetchHost s = some (.reserved why)) :
    step s = .next (refuseWord (consumeTurn s)) := by
  have fetched : fetchHost (consumeTurn s) = some (.reserved why) := hw
  rw [step_host hn he, hostStep, fetched]

/-- Settles O11: a reserved word is refused, a refused host's turn passes, and the refusal commutes with the
steps of the other agents. -/
theorem reservedWordIsRefused : Obligations.ReservedWordIsRefused := by
  unfold Obligations.ReservedWordIsRefused
  intro s w why
  refine ⟨fun ⟨hf, hn⟩ hr hw hd => ?_, fun ⟨hf, hn⟩ hr busy => ?_, fun u hr other he hstep => ?_⟩
  · obtain ⟨hlt, -⟩ := List.getElem?_eq_some_iff.1 hw
    have fetched : fetchHost s = some (.reserved why) := by simpa [fetchHost, hw, decode] using hd
    exact step_refusesWord hn (isEnabled_host_iff.2 ⟨hf, hr, hlt⟩) fetched
  · have ha : anyEnabled s = true := by
      rw [← Bool.not_eq_false, anyEnabled_eq_false_iff hf]
      tauto
    exact step_of_disabled ha hn (by simp [isEnabled, hr])
  · have same : refuseWord { s with refused := false } = s := by rw [refuseWord, ← hr]
    have he' : isEnabled (nextTurn s) { s with refused := false } = true := by
      rw [← isEnabled_refuseWord _ other, same, he]
    have refused := step_refuseWord { s with refused := false } other he'
    rwa [same, hstep] at refused

end Sys2Proof.Machine
end

section
/-! PROOFS. Liveness (60_exceptions.md R121). A turn of a busy block in which the handler takes no event leaves the
command where it is; fairness brings the turn in which it takes one; each event taken is a step nearer to the
command's end, and each command ended is a kind fewer ahead of a waiting one. -/

namespace Sys2Proof.Machine

/-! ### The commands a trace has ended -/

section
variable (s : State)

theorem deselects_dispatch : deselects (dispatch s) = deselects s := by
  obtain ⟨-, e⟩ | ⟨k, -, e⟩ := dispatch_cases s <;> rw [e]
  simp [deselects]

theorem deselects_finish : deselects (finish s) = deselects s + 1 := by
  rw [finish, deselects_dispatch]
  simp [deselects]

theorem deselects_requestKinds (mask : BitVec 3) : deselects (requestKinds mask s) = deselects s := by
  cases hact : s.act with
  | idle =>
    rw [requestKinds_idle hact]
    exact deselects_dispatch _
  | busy code step c =>
    rw [requestKinds_busy hact]
    rfl

theorem deselects_transportComplete (r : Byte) : deselects (transportComplete r s) = deselects s := by
  obtain ⟨-, e⟩ | ⟨b, -, e⟩ | ⟨-, e⟩ := transportComplete_cases r s <;> rw [e] <;> simp [deselects]

end

theorem HostMove.deselects_eq {s t : State} {i : Instr} (h : HostMove s i t) : deselects t = deselects s := by
  cases h with
  | initialisedRequesting => exact deselects_requestKinds _ _
  | requested mask => exact deselects_requestKinds _ _
  | enabledSet => exact deselects_requestKinds _ _
  | brightnessSet => exact deselects_requestKinds _ _
  | _ => rfl

/-! ### A turn in which the handler takes no event -/

/-- The command, its step and the commands ended are the same; what was pending or requested still is. -/
structure Unhandled (s t : State) : Prop where
  act : t.act = s.act := by rfl
  ended : deselects t = deselects s := by rfl
  pending : s.evt ≠ .none → t.evt ≠ .none := by exact id
  requests : ∀ j, s.req.getLsbD j = true → t.req.getLsbD j = true := by exact fun _ => id

theorem Unhandled.trans {s t u : State} (h : Unhandled s t) (h' : Unhandled t u) : Unhandled s u where
  act := h'.act.trans h.act
  ended := h'.ended.trans h.ended
  pending := h'.pending ∘ h.pending
  requests j := h'.requests j ∘ h.requests j

section
variable {s : State}

theorem unhandled_requestKinds (busy : s.act ≠ .idle) (mask : BitVec 3) :
    Unhandled s (requestKinds mask s) := by
  cases hact : s.act with
  | idle => exact absurd hact busy
  | busy code step c =>
    rw [requestKinds_busy hact]
    exact { requests := fun j hj => by simp [hj] }

theorem unhandled_transportComplete (r : Byte) : Unhandled s (transportComplete r s) where
  act := transportComplete_act r s
  ended := deselects_transportComplete s r
  pending := by
    obtain ⟨-, e⟩ | ⟨b, -, e⟩ | ⟨-, e⟩ := transportComplete_cases r s <;> simp [e]
  requests := by simp

theorem HostMove.unhandled {t : State} {i : Instr} (h : HostMove s i t) (busy : s.act ≠ .idle) :
    Unhandled s t := by
  have hd := h.deselects_eq
  obtain e | ⟨u, mask, e, rfl⟩ := h.transfer
  · exact ⟨e.act, hd, by simp [e.evt], by simp [e.req]⟩
  · have requested := unhandled_requestKinds (e.act ▸ busy) mask
    exact ⟨requested.act.trans e.act, hd, e.evt ▸ requested.pending, e.req ▸ requested.requests⟩

theorem unhandled_hostStep {t : State} (busy : s.act ≠ .idle) (h : hostStep s = .next t) : Unhandled s t := by
  obtain ⟨-, e⟩ | ⟨_, -, e⟩ | ⟨i, w, -, hd, e⟩ := hostStep_cases s <;> rw [e] at h
  · cases h
    exact {}
  · cases h
    exact {}
  · exact (hostCommand_move hd h).unhandled busy

theorem isEnabled_handler_iff : isEnabled .handler s = true ↔ s.fault = none ∧ s.evt ≠ .none := by
  simp [isEnabled, isPending]

theorem isEnabled_transport_iff {r : Byte} :
    isEnabled (.transport r) s = true ↔ s.fault = none ∧ s.xfer ≠ .none := by
  simp [isEnabled, isTransferring]

theorem unhandled_afterTurn {turn : Turn} (hf : s.fault = none) (busy : s.act ≠ .idle)
    (untaken : (isHandlerTurn turn && isEnabled .handler s) = false) : Unhandled s (afterTurn turn s) := by
  obtain h | h := afterTurn_cases turn s
  · have same : Unhandled s (consumeTurn (choose turn s)) := {}
    generalize afterTurn turn s = t at h
    cases step_move h with
    | rested => exact {}
    | passed => exact same
    | host _ _ moved => exact same.trans (unhandled_hostStep busy moved)
    | handler next moved =>
      obtain rfl : turn = .handler := next
      have empty : s.evt = .none := by
        simpa [isHandlerTurn, ← Bool.not_eq_true, isEnabled_handler_iff, hf] using untaken
      obtain ⟨-, rfl⟩ | ⟨r, hevt, -⟩ := handlerTurn_cases moved
      · exact same
      · simp [choose, empty] at hevt
    | transport r => exact same.trans (unhandled_transportComplete r)
    | trigger mask => exact same.trans (unhandled_requestKinds (s := consumeTurn (choose turn s)) busy mask)
  · rw [h]
    exact {}

/-- The transport's turn with an operation in flight raises its event. -/
theorem pending_afterTurn_transport {turn : Turn} (ht : isTransportTurn turn = true) (hf : s.fault = none)
    (hx : s.xfer ≠ .none) : (afterTurn turn s).evt ≠ .none := by
  cases turn with
  | transport r =>
    rw [afterTurn_of_next (step_transport (s := choose (.transport r) s) hf rfl hx)]
    obtain ⟨free, -⟩ | ⟨b, -, e⟩ | ⟨-, e⟩ := transportComplete_cases r (consumeTurn (choose (.transport r) s))
    · exact absurd free hx
    · simp [e]
    · simp [e]
  | _ => cases ht

/-! ### A turn in which the handler takes an event -/

/-- What the handler leaves of a command of kind `k` at `step`, its event taken: the command at its next step, or
the command finished. -/
inductive Handled (k : Kind) (step : BitVec 5) (s : State) : State → Prop
  | goesOn {t : State} (c : BitVec 5) (more : step.toNat + 1 < totalSteps k)
      (act : t.act = .busy (kindCode k) (step + 1) c) (req : t.req = s.req)
      (ended : deselects t = deselects s) : Handled k step s t
  | finishes {u : State} (last : step.toNat + 1 = totalSteps k) (req : u.req = s.req)
      (ended : deselects u = deselects s) : Handled k step s (finish u)

theorem HandlerMove.handled {t : State} {k : Kind} {step c : BitVec 5} {r : Option Byte}
    (h : HandlerMove s k step c r t) (hlt : step.toNat < totalSteps k) (sound : t.fault = none) :
    Handled k step s t := by
  cases h with
  | configSent =>
    have last : step.toNat + 1 = totalSteps .wc := by simp only [totalSteps] at hlt ⊢; omega
    exact .finishes last rfl rfl
  | receiveEntered => exact .goesOn 0 (by decide) rfl rfl (by simp [deselects])
  | keyStaged _ _ b first last =>
    have h4 : step.toNat ≠ 4 := toNat_ne (by decide) last
    have more : step.toNat + 1 < totalSteps .rk := by simp only [totalSteps] at hlt ⊢; omega
    exact .goesOn (c + 1) more rfl rfl (by simp [deselects])
  | keysCommitted => exact .finishes rfl rfl (by simp [deselects])
  | byteMissing => cases sound
  | payloadSent _ _ _ b last =>
    have h16 : step.toNat ≠ 16 := toNat_ne (by decide) last
    have more : step.toNat + 1 < totalSteps .ws := by simp only [totalSteps] at hlt ⊢; omega
    exact .goesOn (c + 1) more rfl rfl (by simp [deselects])
  | frameSent => exact .finishes rfl rfl rfl

theorem Handled.of_same {u t : State} {k : Kind} {step : BitVec 5} (h : Handled k step u t)
    (hreq : u.req = s.req) (hended : deselects u = deselects s) : Handled k step s t := by
  cases h with
  | goesOn c more act req ended => exact .goesOn c more act (req.trans hreq) (ended.trans hended)
  | finishes last req ended => exact .finishes last (req.trans hreq) (ended.trans hended)

theorem handled_afterTurn {k : Kind} {step c : BitVec 5} (inv : StepInvariant s)
    (hact : s.act = .busy (kindCode k) step c) (he : isEnabled .handler s = true) :
    Handled k step s (afterTurn .handler s) := by
  obtain ⟨hf, pending⟩ := isEnabled_handler_iff.1 he
  cases hevt : s.evt with
  | none => exact absurd hevt pending
  | done r =>
    have chosen : StepInvariant (choose .handler s) := inv.of_sameTransfer {}
    have turn : StepInvariant (consumeTurn (choose .handler s)) := inv.of_sameTransfer {}
    have hk := turn.inTransfer hact
    obtain ⟨t, ht, hm⟩ := hk.onComplete_answers r
    have hs : Machine.step (choose .handler s) = .next t :=
      (step_handler (s := choose .handler s) hf rfl hevt).trans ht
    have sound := (stepKeepsInvariants _ _ chosen hs).noFault
    have ⟨_, hlt⟩ := hk.due
    rw [afterTurn_of_next hs]
    exact (hm.handled hlt sound).of_same rfl rfl

/-- What a busy block has in flight is of one of the three kinds. -/
theorem StepInvariant.exists_kind (inv : StepInvariant s) (busy : s.act ≠ .idle) :
    ∃ k step c, s.act = .busy (kindCode k) step c := by
  obtain ⟨-, ⟨idle, -⟩ | ⟨k, step, c, hk⟩⟩ := stepInvariant_iff.1 inv
  · exact absurd idle busy
  · have ⟨hact, _⟩ := hk.due
    exact ⟨k, step, c, hact⟩

end

/-! ### Along a fair run, every command finishes -/

section
variable {sched : Nat → Turn} {s : State} {n : Nat}

theorem eventsHandled_add (a b : Nat) :
    eventsHandled sched s n (a + b) = eventsHandled sched s n a + eventsHandled sched s (n + a) b := by
  induction b with
  | zero => rfl
  | succ b ih => rw [← Nat.add_assoc, eventsHandled, ih, eventsHandled, Nat.add_assoc n a b, Nat.add_assoc]

variable (inv : StepInvariant s)
include inv

theorem stepInvariant_runAt (n : Nat) : StepInvariant (runAt sched s n) :=
  runAt_of_kept inv (fun _ _ _ hu hv => stepKeepsInvariants _ _ (hu.of_sameTransfer {}) hv) n

theorem unhandled_runAt {d : Nat} (busy : (runAt sched s n).act ≠ .idle)
    (untaken : ∀ i < d, handlesAt sched s (n + i) = false) :
    Unhandled (runAt sched s n) (runAt sched s (n + d)) ∧ eventsHandled sched s n d = 0 := by
  induction d with
  | zero => exact ⟨{}, rfl⟩
  | succ d ih =>
    obtain ⟨same, noEvent⟩ := ih fun i hi => untaken i (by omega)
    have hf := (stepInvariant_runAt (sched := sched) inv (n + d)).noFault
    have last := untaken d (by omega)
    refine ⟨same.trans (unhandled_afterTurn hf ?_ last), by simp [eventsHandled, noEvent, last]⟩
    rwa [same.act]

theorem handled_runAt {k : Kind} {step c : BitVec 5}
    (hact : (runAt sched s n).act = .busy (kindCode k) step c) (handles : handlesAt sched s n = true) :
    Handled k step (runAt sched s n) (runAt sched s (n + 1)) := by
  obtain ⟨turn, he⟩ := Bool.and_eq_true_iff.1 handles
  have mine : sched n = .handler := by
    cases hn : sched n <;> simp [isHandlerTurn, hn] at turn ⊢
  rw [runAt_succ, mine]
  exact handled_afterTurn (stepInvariant_runAt inv n) hact he

variable (fair : FairSchedule sched s)
include fair

/-- Where the handler never takes an event, none is ever pending: else it would be handled. -/
theorem nothing_pending (busy : (runAt sched s n).act ≠ .idle)
    (never : ∀ i, handlesAt sched s (n + i) = false) (d : Nat) : (runAt sched s (n + d)).evt = .none := by
  by_contra pending
  have still (i : Nat) : (runAt sched s (n + d + i)).evt ≠ .none := by
    obtain ⟨here, -⟩ := unhandled_runAt inv busy (d := d) fun i _ => never i
    obtain ⟨later, -⟩ := unhandled_runAt inv (n := n + d) (d := i) (by rwa [here.act]) fun i _ => by
      simpa [Nat.add_assoc] using never (d + i)
    exact later.pending pending
  have enabled (i : Nat) : isEnabled .handler (runAt sched s (n + d + i)) = true :=
    isEnabled_handler_iff.2 ⟨(stepInvariant_runAt inv _).noFault, still i⟩
  obtain ⟨-, handlerFair⟩ := fair
  obtain ⟨m, hm, turn⟩ := handlerFair (n + d) fun m hm => by
    obtain ⟨i, rfl⟩ := Nat.exists_eq_add_of_le hm
    exact ⟨.handler, rfl, enabled i⟩
  obtain ⟨i, rfl⟩ := Nat.exists_eq_add_of_le hm
  have handles : handlesAt sched s (n + d + i) = true := Bool.and_eq_true_iff.2 ⟨turn, enabled i⟩
  rw [Nat.add_assoc, never (d + i)] at handles
  cases handles

/-- With no event pending an operation is in flight, and the transport would complete it. -/
theorem exists_handlesAt (busy : (runAt sched s n).act ≠ .idle) : ∃ d, handlesAt sched s (n + d) = true := by
  by_contra notFound
  have never (i : Nat) : handlesAt sched s (n + i) = false := by simpa using not_exists.1 notFound i
  have empty := nothing_pending inv fair busy never
  have sound (i : Nat) := (stepInvariant_runAt (sched := sched) inv (n + i)).noFault
  have inFlight (i : Nat) : (runAt sched s (n + i)).xfer ≠ .none := by
    obtain ⟨same, -⟩ := unhandled_runAt inv busy (d := i) fun i _ => never i
    obtain ⟨-, one⟩ := (stepInvariant_runAt (sched := sched) inv (n + i)).busyIsFramed (by rwa [same.act])
    exact one.2 (empty i)
  obtain ⟨transportFair, -⟩ := fair
  obtain ⟨m, hm, turn⟩ := transportFair n fun m hm => by
    obtain ⟨i, rfl⟩ := Nat.exists_eq_add_of_le hm
    exact ⟨.transport 0, rfl, isEnabled_transport_iff.2 ⟨sound i, inFlight i⟩⟩
  obtain ⟨i, rfl⟩ := Nat.exists_eq_add_of_le hm
  exact pending_afterTurn_transport turn (sound i) (inFlight i) (empty (i + 1))

/-- The next event of a command is taken, and until then the command stays where it is. -/
theorem exists_handled {k : Kind} {step c : BitVec 5}
    (hact : (runAt sched s n).act = .busy (kindCode k) step c) :
    ∃ d, (∀ i ≤ d, Unhandled (runAt sched s n) (runAt sched s (n + i))) ∧
      eventsHandled sched s n (d + 1) = 1 ∧
      Handled k step (runAt sched s (n + d)) (runAt sched s (n + d + 1)) := by
  have busy : (runAt sched s n).act ≠ .idle := by simp [hact]
  have found := exists_handlesAt inv fair busy
  let d := Nat.find found
  have handles : handlesAt sched s (n + d) = true := Nat.find_spec found
  have before (i : Nat) (hi : i < d) : handlesAt sched s (n + i) = false := by
    simpa using Nat.find_min found hi
  have same (i : Nat) (hi : i ≤ d) := unhandled_runAt inv busy (d := i) fun j hj => before j (by omega)
  obtain ⟨here, noEvent⟩ := same d le_rfl
  refine ⟨d, fun i hi => (same i hi).1, by simp [eventsHandled, noEvent, handles], ?_⟩
  exact handled_runAt inv (here.act.trans hact) handles

end

theorem totalSteps_le (k : Kind) : totalSteps k ≤ 17 := by cases k <;> decide

/-- A command of kind `k`, at `step` at turn `n`, is active for `d` turns more, and then its last step finishes. -/
structure FinishesAfter (sched : Nat → Turn) (s : State) (n : Nat) (k : Kind) (step : BitVec 5) (d : Nat) :
    Prop where
  active : ∀ i ≤ d, (∃ st c, (runAt sched s (n + i)).act = .busy (kindCode k) st c) ∧
    deselects (runAt sched s (n + i)) = deselects (runAt sched s n)
  ends : ∃ u, runAt sched s (n + d + 1) = finish u ∧ u.req = (runAt sched s (n + d)).req ∧
    deselects u = deselects (runAt sched s (n + d))
  events : eventsHandled sched s n (d + 1) = totalSteps k - step.toNat

theorem exists_finishesAfter {sched : Nat → Turn} {s : State} (inv : StepInvariant s)
    (fair : FairSchedule sched s) {n : Nat} {k : Kind} {step c : BitVec 5}
    (hact : (runAt sched s n).act = .busy (kindCode k) step c) :
    ∃ d, FinishesAfter sched s n k step d := by
  obtain ⟨d, same, once, handled⟩ := exists_handled inv fair hact
  have here (i : Nat) (hi : i ≤ d) : (∃ st c, (runAt sched s (n + i)).act = .busy (kindCode k) st c) ∧
      deselects (runAt sched s (n + i)) = deselects (runAt sched s n) :=
    ⟨⟨step, c, (same i hi).act.trans hact⟩, (same i hi).ended⟩
  generalize hnext : runAt sched s (n + d + 1) = next at handled
  cases handled with
  | finishes last req ended => exact ⟨d, here, ⟨_, hnext, req, ended⟩, by omega⟩
  | goesOn c' more hact' req ended =>
    subst hnext
    have hstep := toNat_add_one (step := step) (by have := totalSteps_le k; omega)
    obtain ⟨e, active, ends, events⟩ := exists_finishesAfter inv fair hact'
    have ended := ended.trans (same d le_rfl).ended
    refine ⟨d + 1 + e, fun i hi => ?_, by simpa only [Nat.add_assoc] using ends, ?_⟩
    · obtain beyond | within := Nat.lt_or_ge d i
      · obtain ⟨j, rfl⟩ := Nat.exists_eq_add_of_lt beyond
        obtain ⟨kind, still⟩ := active j (by omega)
        have turns : n + (d + j + 1) = n + d + 1 + j := by omega
        rw [turns]
        exact ⟨kind, still.trans ended⟩
      · exact here i within
    · have turns : d + 1 + e + 1 = d + 1 + (e + 1) := by omega
      rw [turns, eventsHandled_add, once, ← Nat.add_assoc n d 1, events, hstep]
      omega
termination_by totalSteps k - step.toNat

/-! ### Along a fair run, every requested kind starts -/

/-- `k` is in the RequestedSet. -/
def Requested (k : Kind) (s : State) : Prop := s.req.getLsbD (kindCode k).toNat = true

theorem getLsbD_kindBit (j : Kind) :
    ∀ i < 3, (kindBit (kindCode j)).getLsbD i = decide (i = (kindCode j).toNat) := by
  cases j <;> decide

theorem getLsbD_unmarked (x : BitVec 3) (j : Kind) {i : Nat} (hi : i < 3) :
    (x &&& ~~~(kindBit (kindCode j))).getLsbD i = (x.getLsbD i && decide (i ≠ (kindCode j).toNat)) := by
  rw [BitVec.getLsbD_and, BitVec.getLsbD_not, getLsbD_kindBit j i hi]
  simp [hi]

/-- A `Finish` starts a waiting kind, or one of higher priority. -/
theorem finish_serves {k : Kind} {s : State} (h : Requested k s) :
    (finish s).act = .busy (kindCode k) 0 0 ∨
      Requested k (finish s) ∧
        ∃ j < (kindCode k).toNat, s.req.getLsbD j = true ∧ (finish s).req.getLsbD j = false := by
  have hk : (kindCode k).toNat < 3 := BitVec.lt_of_getLsbD h
  cases hsel : selectKind s.req with
  | none =>
    rw [Requested, selectKind_eq_none.1 hsel] at h
    simp at h
  | some j =>
    obtain ⟨hj, lower⟩ := selectKind_eq_some.1 hsel
    have hj3 : (kindCode j).toNat < 3 := BitVec.lt_of_getLsbD hj
    obtain higher | same | higher := Nat.lt_trichotomy (kindCode j).toNat (kindCode k).toNat
    · refine .inr ⟨?_, (kindCode j).toNat, higher, hj, ?_⟩
      · rw [Requested, finish_req_of_select hsel, getLsbD_unmarked s.req j hk, h]
        exact decide_eq_true higher.ne'
      · rw [finish_req_of_select hsel, getLsbD_unmarked s.req j hj3]
        simp
    · obtain rfl : j = k := kindCode_inj.1 (BitVec.eq_of_toNat_eq same)
      exact .inl (finish_act_of_select hsel)
    · rw [Requested, lower _ higher] at h
      cases h

/-- The requested kinds of higher priority than `k`. -/
def higherWaiting (k : Kind) (s : State) : Finset Nat :=
  {j ∈ Finset.range (kindCode k).toNat | s.req.getLsbD j = true}

/-- `k` is the active kind at its start at some turn after `n`. -/
def StartsAfter (k : Kind) (sched : Nat → Turn) (s : State) (n : Nat) : Prop :=
  ∃ m, n < m ∧ (runAt sched s m).act = .busy (kindCode k) 0 0

section
variable {sched : Nat → Turn} {s : State} {n : Nat} {k : Kind}

theorem higherWaiting_subset {later : Nat} (proviso : HigherNotRerequested k sched s later) (hn : later ≤ n)
    (d : Nat) : higherWaiting k (runAt sched s (n + d)) ⊆ higherWaiting k (runAt sched s n) := by
  induction d with
  | zero => exact Finset.Subset.refl _
  | succ d ih =>
    refine Finset.Subset.trans (fun j hj => ?_) ih
    obtain ⟨higher, waits⟩ := Finset.mem_filter.1 hj
    exact Finset.mem_filter.2 ⟨higher, proviso (n + d) (by omega) j (Finset.mem_range.1 higher) waits⟩

variable (inv : StepInvariant s)
include inv

/-- A block with a kind in its RequestedSet is busy. -/
theorem exists_active (waits : Requested k (runAt sched s n)) :
    ∃ j step c, (runAt sched s n).act = .busy (kindCode j) step c := by
  have here : StepInvariant (runAt sched s n) := stepInvariant_runAt inv n
  refine here.exists_kind fun idle => ?_
  obtain ⟨empty, -⟩ := here.idleIsQuiet idle
  simp [Requested, empty] at waits

/-- A waiting kind is started or waits on, turn by turn. -/
theorem requested_succ (waits : Requested k (runAt sched s n)) :
    (runAt sched s (n + 1)).act = .busy (kindCode k) 0 0 ∨ Requested k (runAt sched s (n + 1)) := by
  obtain ⟨j, step, c, hact⟩ := exists_active inv waits
  cases handles : handlesAt sched s n with
  | false =>
    have hf := (stepInvariant_runAt (sched := sched) inv n).noFault
    exact .inr ((unhandled_afterTurn hf (by simp [hact]) handles).requests _ waits)
  | true =>
    have handled := handled_runAt inv hact handles
    generalize runAt sched s (n + 1) = t at handled
    cases handled with
    | goesOn c more act req ended => exact .inr (by rwa [Requested, req])
    | @finishes u last req ended =>
      have waits : Requested k u := by rwa [Requested, req]
      exact (finish_serves waits).imp_right And.left

theorem requested_add (waits : Requested k (runAt sched s n)) (d : Nat) :
    StartsAfter k sched s n ∨ Requested k (runAt sched s (n + d)) := by
  induction d with
  | zero => exact .inr waits
  | succ d ih =>
    obtain started | waits := ih
    · exact .inl started
    · exact (requested_succ inv waits).imp_left fun started => ⟨n + d + 1, by omega, started⟩

end

/-- Each `Finish` starts the waiting kind or takes a kind out of those ahead of it. -/
theorem startsAfter_of_requested {sched : Nat → Turn} {s : State} (inv : StepInvariant s)
    (fair : FairSchedule sched s) {k : Kind} {later : Nat} (proviso : HigherNotRerequested k sched s later)
    {n : Nat} (hn : later ≤ n) (waits : Requested k (runAt sched s n)) : StartsAfter k sched s n := by
  obtain ⟨j, step, c, hact⟩ := exists_active inv waits
  obtain ⟨d, -, ⟨u, hu, hreq, -⟩, -⟩ := exists_finishesAfter inv fair hact
  obtain started | waits := requested_add inv waits d
  · exact started
  have served := finish_serves (k := k) (s := u) (by rwa [Requested, hreq])
  rw [← hu, hreq] at served
  obtain started | ⟨waits, i, higher, before, after⟩ := served
  · exact ⟨n + d + 1, by omega, started⟩
  have fewer : higherWaiting k (runAt sched s (n + d + 1)) ⊂ higherWaiting k (runAt sched s n) := by
    refine (Finset.ssubset_iff_of_subset (higherWaiting_subset proviso hn (d + 1))).2 ⟨i, ?_, ?_⟩
    · exact higherWaiting_subset proviso hn d (Finset.mem_filter.2 ⟨Finset.mem_range.2 higher, before⟩)
    · intro waitsOn
      obtain ⟨-, still⟩ := Finset.mem_filter.1 waitsOn
      exact Bool.false_ne_true (after.symm.trans still)
  have := Finset.card_lt_card fewer
  obtain ⟨m, hm, started⟩ := startsAfter_of_requested inv fair proviso (by omega) waits
  exact ⟨m, by omega, started⟩
termination_by (higherWaiting k (runAt sched s n)).card

/-- Settles O60: a command's finish ends it by its one `Deselect`; a kind that waits until the proviso holds is
then started. -/
theorem fairRunsFinishAndStartCommands : Obligations.FairRunsFinishAndStartCommands := by
  unfold Obligations.FairRunsFinishAndStartCommands
  intro sched s inv fair
  refine ⟨fun n k st c hact => ?_, fun n later k waits proviso => ?_⟩
  · obtain ⟨d, active, ⟨u, hu, -, ended⟩, events⟩ := exists_finishesAfter inv fair hact
    refine ⟨d, active, ?_, events⟩
    rw [hu, deselects_finish, ended, (active d le_rfl).2]
  · obtain started | waits := requested_add inv waits later
    · exact started
    · obtain ⟨m, hm, started⟩ := startsAfter_of_requested inv fair proviso (by omega) waits
      exact ⟨m, by omega, started⟩

end Sys2Proof.Machine
end

section
/-! PROOFS. Reset (70_reset_and_hazards.md): the table R123, and what a reset state meets (R136). -/

namespace Sys2Proof.Machine

/-! ### The table of R123 -/

@[simp] theorem plane_clearedFb (p : Fin 8) : plane clearedFb p = 0 := by
  rw [clearedFb, plane_fromPlanes]

/-- The table is the same for every value of the parameters. -/
theorem resetState_resetWith (params : Params) : ResetState (State.resetWith params) :=
  ⟨rfl, rfl, rfl, plane_clearedFb, rfl, rfl, rfl, rfl, rfl, rfl, rfl, rfl, rfl, rfl, rfl, rfl, rfl⟩

theorem resetState_reset : ResetState State.reset := resetState_resetWith resetParams

/-- Settles O15: the table of R123 for any parameters, and the other fields as `State.reset` writes them. -/
theorem resetLeavesTable : Obligations.ResetLeavesTable := by
  unfold Obligations.ResetLeavesTable
  exact ⟨resetState_reset, rfl, rfl, rfl, rfl, rfl, rfl, rfl⟩

/-! ### What a reset state meets -/

section
variable {s : State} (h : ResetState s)
include h

theorem ResetState.quiet : Quiet s := by
  obtain ⟨hreq, hact, -, -, -, -, -, -, hcs, hrx, hxfer, hevt, -⟩ := h
  exact ⟨hact, hreq, hxfer, hevt, hcs, hrx⟩

theorem ResetState.noFault : NoFault s := by
  obtain ⟨-, -, -, -, -, -, -, -, -, -, -, -, -, -, hfault, hrefused, -⟩ := h
  exact ⟨hfault, hrefused⟩

theorem ResetState.stepInvariant : StepInvariant s :=
  have ⟨noFault, _⟩ := h.noFault
  .of_quiet h.quiet noFault

/-- No bus event has happened, and none is due: the bus is released. -/
theorem ResetState.framed : Framed s := by
  obtain ⟨-, hact, -, -, -, -, -, -, -, -, -, -, -, htrace, -⟩ := h
  rw [Framed, htrace, expectedBusPos_idle hact]
  rfl

theorem ResetState.unusedSlotsDark : UnusedSlotsDark s.fb := by
  obtain ⟨-, -, -, dark, -⟩ := h
  intro p d _
  simp [fbBit, dark]

/-- `HPC` is 0, whatever the program. -/
theorem ResetState.hpcInRange : HpcInRange s := by
  obtain ⟨-, -, -, -, -, -, -, -, -, -, -, -, -, -, -, -, hhpc⟩ := h
  simp [HpcInRange, hhpc]

end

theorem glyphTableOk_defaultGlyph : glyphTableOk defaultGlyph = true := by decide

/-- Settles O16: a reset state is quiet and without fault, which gives the invariants; `State.reset` is one, with
no split read under way. -/
theorem resetMeetsInvariants : Obligations.ResetMeetsInvariants := by
  unfold Obligations.ResetMeetsInvariants
  have reset := resetState_reset
  obtain ⟨-, splitReadHeld⟩ := HostPositioned.of_whole reset.hpcInRange rfl
  refine ⟨fun s h => ?_, ?_⟩
  · exact ⟨h.quiet, h.noFault, h.stepInvariant.toInvariants, h.stepInvariant, h.framed, h.unusedSlotsDark,
      h.hpcInRange⟩
  · exact ⟨reset, reset.quiet, reset.noFault, reset.stepInvariant, reset.framed, reset.unusedSlotsDark,
      reset.hpcInRange, splitReadHeld, glyphTableOk_defaultGlyph⟩

end Sys2Proof.Machine
end

section
/-! PROOFS. The vectors of 95_test_vectors.md section 2.1: each word is the encoding of the instruction that the
table names for it. -/

namespace Sys2Proof

theorem decode_of_encode {i : Instr} {c : CodeWord} (wf : i.wf = true) (encoded : encode i = c) :
    decode c = .instr i := by
  rw [← encoded]
  exact decodeOfEncodeIsIdentity i wf

/-- Settles O4: every operand is in range and each word is computed by the encoder, so the decoder reads the
instruction back. -/
theorem specWordsDecode : Obligations.SpecWordsDecode := by
  unfold Obligations.SpecWordsDecode
  refine ⟨?init, ?request, ?writeDigit, ?setEnabled, ?setBrightness, ?getKeys,
    ?wireDisplayControl, ?wireReadData, ?wireWriteData, ?wireSetAddress⟩
  case writeDigit =>
    have minusOneFits : digitValueFits (-1) = true := by decide
    exact decode_of_encode minusOneFits rfl
  all_goals exact decode_of_encode rfl rfl

end Sys2Proof
end
